-- ==== Sys2Proof/Word.lean ====
section
/-! DEFINITION. The values of the XJX machine (spec/00_scope.md R9), and the byte of its attachment channels
(spec/46_iomap_and_devices.md R181).

R9: "Every value in the machine is a natural number (a 'Word': 'a non-negative integer')"; there are no bits, no widths
and no signed values.  A Word is therefore a `Nat`, and is written `Nat` everywhere.  Which Words are valid (at most
`wordMax`) depends on the configuration: see Machine/Operands.lean. -/

namespace Sys2Proof

/-- R181: one raw byte of an attachment channel; the engine itself has no bytes (R51). -/
abbrev Byte := BitVec 8

end Sys2Proof
end

