-- ==== Sys2Proof/Config.lean ====
section
/-! DEFINITION. The implementation parameters of spec/00_scope.md R5: what an XJX machine is built with and never
changes during a run.  Every rule takes them as an argument (R5: "A model takes them as a configuration record"), so a
statement about every state is a statement about every configuration.  The values of the document's one example are
`Config.reference` in Decode.lean. -/

namespace Sys2Proof

/-- R107, decision D3: what the reserved micro-operation does.  The document allows both. -/
inductive Reserved6Policy where
  /-- rejected: the step raises Fatal (the spec's default) -/
  | fatal
  /-- accepted as a no-op -/
  | nop
  deriving DecidableEq, Repr

/-- R172: one argument of a device entry's command template.  The document has "two reserved placeholder tokens for
the generated channel names" and does not spell them, so each is a constructor. -/
inductive TemplateArg where
  | literal (text : String)
  /-- replaced by the name of the channel the device writes and this machine reads -/
  | fromDeviceChannel
  /-- replaced by the name of the channel this machine writes and the device reads -/
  | toDeviceChannel
  deriving DecidableEq, Repr

/-- R172: a device entry, "a static descriptor (argv-style command template with placeholder tokens)". -/
structure DeviceEntry where
  command : List TemplateArg
  deriving DecidableEq, Repr

/-- R5, R72: the configuration table `code_of`, one numeric code for each row of the document's dispatch table, the
reserved row counted. -/
structure CodeTable where
  nop : Nat
  dbRam : Nat
  ramDb : Nat
  dbIns : Nat
  insAb : Nat
  insMc : Nat
  reserved : Nat
  mc0 : Nat
  pcAb : Nat
  pcInc : Nat
  if0PcInc : Nat
  insPc : Nat
  acc0 : Nat
  plus : Nat
  minus : Nat
  accDb : Nat
  accInc : Nat
  accDec : Nat
  dbAcc : Nat
  stop : Nat
  insDb : Nat
  insMur1 : Nat
  insMur2 : Nat
  murMc : Nat
  iomap : Nat
  deriving DecidableEq, Repr

/-- R5: the parameters of a machine. -/
structure Config where
  /-- largest valid `hi` digit group of a Word -/
  hiMax : Nat
  /-- largest valid `lo` digit group, last RAM address, and the update register's "no code change" sentinel -/
  loMax : Nat
  /-- last microcode store address -/
  mcAddrMax : Nat
  /-- static device descriptors, indexed from 0 by position; may be empty -/
  deviceEntries : List DeviceEntry
  /-- the window `(io_min_addr, io_max_addr)` this machine advertises when it is itself attached as a device (R180);
  the host supplies it "optionally" (R220), and what an instance without one sends is log 20's choice -/
  ioWindow : Option (Nat × Nat)
  /-- the numeric code of each micro-operation -/
  codeOf : CodeTable
  reserved6Policy : Reserved6Policy
  deriving DecidableEq, Repr

end Sys2Proof
end

