-- ==== Sys2Proof/Machine/Operands.lean ====
section
/-! DEFINITION. The word arithmetic unit (spec/40_word_arithmetic.md): `modulus`, `hi`, `lo`, recomposition and the
accumulator's clamp.  These are the only operand forms of the machine: a micro-operation reads a whole register, or one
decimal digit group of `ins` (spec/30_encoding.md R75). -/

namespace Sys2Proof.Machine

/-- `ndigits` counting at most `fuel + 1` digits. -/
def ndigitsUpTo : Nat → Nat → Nat
  | 0, _ => 1
  | fuel + 1, n => if n < 10 then 1 else ndigitsUpTo fuel (n / 10) + 1

/-- R94: the number of decimal digits of `n`, for `n >= 1`.  (`n` divisions by ten are always enough.) -/
def ndigits (n : Nat) : Nat := ndigitsUpTo n n

/-- R90: `modulus = 10^ndigits(lo_max)` (spec/90_conflicts.md C1). -/
def modulus (cfg : Config) : Nat := 10 ^ ndigits cfg.loMax

/-- R6, R95: the largest valid Word, and the accumulator's upper clamp. -/
def wordMax (cfg : Config) : Nat := cfg.hiMax * modulus cfg + cfg.loMax

/-- R91: the upper decimal digit group. -/
def hi (cfg : Config) (v : Nat) : Nat := v / modulus cfg

/-- R92: the lower decimal digit group. -/
def lo (cfg : Config) (v : Nat) : Nat := v % modulus cfg

/-- R93: the Word with digit groups `h` and `l`. -/
def recompose (cfg : Config) (h l : Nat) : Nat := h * modulus cfg + l

/-- R95: the clamp the document calls "accCheck", of the exact integer result (R141). -/
def sat (cfg : Config) (z : Int) : Nat :=
  if z < 0 then 0
  else if (wordMax cfg : Int) < z then wordMax cfg
  else z.toNat

end Sys2Proof.Machine
end

