-- ==== Sys2Proof/Syntax.lean ====
section
/-! DEFINITION. The micro-operations: one constructor per row of spec/opcode_table.json, in the order of the
document's dispatch table (spec/30_encoding.md R72).  A micro-operation has no operand, no register field, no immediate
and no modifier (R71), so no constructor takes an argument. -/

namespace Sys2Proof

/-- R72: the 24 named micro-operations and the reserved row. -/
inductive Instr where
  | nop | dbRam | ramDb | dbIns | insAb | insMc
  /-- the row "(reserved, unused)", which has no mnemonic (R78, R107) -/
  | reserved
  | mc0 | pcAb | pcInc | if0PcInc | insPc | acc0 | plus | minus | accDb | accInc | accDec | dbAcc | stop
  | insDb | insMur1 | insMur2 | murMc | iomap
  deriving DecidableEq, Repr

/-- Every micro-operation, in the order of the document's dispatch table (R72). -/
def Instr.all : List Instr :=
  [.nop, .dbRam, .ramDb, .dbIns, .insAb, .insMc, .reserved, .mc0, .pcAb, .pcInc, .if0PcInc, .insPc, .acc0]
    ++ [.plus, .minus, .accDb, .accInc, .accDec, .dbAcc, .stop, .insDb, .insMur1, .insMur2, .murMc, .iomap]

end Sys2Proof
end

