-- ==== Sys2Proof/WellFormed.lean ====
section
/-! DEFINITION. Which configurations are well formed, and when a micro-operation is well formed under one.

A micro-operation carries no operand (R71), so as syntax alone none is ill formed; what can go wrong is its entry in
the configuration table `code_of`: a code that another micro-operation has too would make decoding ambiguous. -/

namespace Sys2Proof

/-- R5: the entry of a code table for a micro-operation. -/
def CodeTable.code (t : CodeTable) : Instr → Nat
  | .nop => t.nop
  | .dbRam => t.dbRam
  | .ramDb => t.ramDb
  | .dbIns => t.dbIns
  | .insAb => t.insAb
  | .insMc => t.insMc
  | .reserved => t.reserved
  | .mc0 => t.mc0
  | .pcAb => t.pcAb
  | .pcInc => t.pcInc
  | .if0PcInc => t.if0PcInc
  | .insPc => t.insPc
  | .acc0 => t.acc0
  | .plus => t.plus
  | .minus => t.minus
  | .accDb => t.accDb
  | .accInc => t.accInc
  | .accDec => t.accDec
  | .dbAcc => t.dbAcc
  | .stop => t.stop
  | .insDb => t.insDb
  | .insMur1 => t.insMur1
  | .insMur2 => t.insMur2
  | .murMc => t.murMc
  | .iomap => t.iomap

/-- A micro-operation is well formed under a configuration when no other micro-operation has its code (DEDUCED, log 6, safe). -/
def Instr.wf (cfg : Config) (i : Instr) : Bool :=
  Instr.all.all fun j => decide (j = i) || decide (cfg.codeOf.code j ≠ cfg.codeOf.code i)

/-- R7: a valid configuration has `lo_max >= 1` (`hi_max` and `mc_addr_max` may be any natural number).  That no two
micro-operations share a code is DEDUCED from R72 and R73 (log 6, safe). -/
abbrev Config.Valid (cfg : Config) : Prop :=
  1 ≤ cfg.loMax ∧ ∀ i ∈ Instr.all, i.wf cfg = true

end Sys2Proof
end

