-- ==== Sys2Proof/Decode.lean ====
section
/-! DEFINITION. Format MC (spec/30_encoding.md R70 to R73): a microcode cell is one natural number, compared whole with
the codes of the configuration's table.  The decoder, total on natural numbers; the encoder; the default code table of
R72; the mnemonics of R78; and the document's example parameters (R5). -/

namespace Sys2Proof

/-- R72: the default of `code_of`, the position of each row in the document's dispatch table (decision D2). -/
def defaultCodeOf : CodeTable where
  nop := 0
  dbRam := 1
  ramDb := 2
  dbIns := 3
  insAb := 4
  insMc := 5
  reserved := 6
  mc0 := 7
  pcAb := 8
  pcInc := 9
  if0PcInc := 10
  insPc := 11
  acc0 := 12
  plus := 13
  minus := 14
  accDb := 15
  accInc := 16
  accDec := 17
  dbAcc := 18
  stop := 19
  insDb := 20
  insMur1 := 21
  insMur2 := 22
  murMc := 23
  iomap := 24

/-- R5, R6: the document's one example (`hi_max = 19`, `lo_max = 999`, `mc_addr_max = 199`), with the spec's defaults
for `code_of` (D2), `reserved6_policy` (D3) and `device_entries` (D14), and no advertised window (DESIGN CHOICE, log 2, unsafe for claims about the reset state only). -/
def Config.reference : Config where
  hiMax := 19
  loMax := 999
  mcAddrMax := 199
  deviceEntries := []
  ioWindow := none
  codeOf := defaultCodeOf
  reserved6Policy := .fatal

/-- R73: what decoding answers for a code that is no row's. -/
inductive DecodeError where
  /-- R73, R74: the code is not in the table; dispatching it is fatal (R102) -/
  | unrecognised (code : Nat)
  deriving DecidableEq, Repr

/-- R73: the micro-operation whose code the cell holds, or the code rejected by name.  The whole cell is compared
(R71). -/
def decode (cfg : Config) (c : Nat) : Except DecodeError Instr :=
  match Instr.all.find? (fun i => decide (cfg.codeOf.code i = c)) with
  | some i => .ok i
  | none => .error (.unrecognised c)

/-- R71, R72: the cell that holds a micro-operation is its code. -/
def encode (cfg : Config) (i : Instr) : Nat := cfg.codeOf.code i

/-- R78: the symbolic name of a micro-operation.  The reserved row has none. -/
def Instr.mnemonic : Instr → Option String
  | .nop => some "nop"
  | .dbRam => some "db_ram"
  | .ramDb => some "ram_db"
  | .dbIns => some "db_ins"
  | .insAb => some "ins_ab"
  | .insMc => some "ins_mc"
  | .reserved => none
  | .mc0 => some "mc_0"
  | .pcAb => some "pc_ab"
  | .pcInc => some "pc_inc"
  | .if0PcInc => some "if_0_pc_inc"
  | .insPc => some "ins_pc"
  | .acc0 => some "acc_0"
  | .plus => some "plus"
  | .minus => some "minus"
  | .accDb => some "acc_db"
  | .accInc => some "acc_inc"
  | .accDec => some "acc_dec"
  | .dbAcc => some "db_acc"
  | .stop => some "stop"
  | .insDb => some "ins_db"
  | .insMur1 => some "ins_mur1"
  | .insMur2 => some "ins_mur2"
  | .murMc => some "mur_mc"
  | .iomap => some "iomap"

/-- R38, R78: the micro-operation a microcode image names, if there is one. -/
def Instr.ofMnemonic (name : String) : Option Instr :=
  Instr.all.find? fun i => decide (i.mnemonic = some name)

/-- The host's word numbering, over the decoder: a micro-operation is one whole cell (R71) and a cell has no bits (R9),
so the word is the cell's value and the count of bits plays no part (DESIGN CHOICE, log 12, safe).  The configuration
is the reset state's. -/
def decodeTableWord (_nbits w : Nat) : Option Instr :=
  match decode .reference w with
  | .ok i => some i
  | .error _ => none

end Sys2Proof
end

