-- ==== Sys2Proof/Machine/State.lean ====
section
/-! DEFINITION. The state of the machine (spec/10_state.md), why a step can stop, and the state after reset.

State is plain data.  `cfg` and `answer` are the MODEL's own fields (DESIGN CHOICE, safe): the parameters, constant for
a run, which R37 counts apart from state (log 1), and the answer of the step that led here, which R39 makes an output of
the step (log 3).  Every other field is named by a rule of spec/10_state.md. -/

namespace Sys2Proof.Machine

/-- What a cell that a store does not list holds (DESIGN CHOICE, log 4, unsafe for claims about the reset state only:
the spec gives no default, R43). -/
def unlistedCell : Nat := 0

/-- A store: the cells that do not hold `unlistedCell`, by rising address.  The unit is the whole cell (R51: there
are no bytes; log 11). -/
abbrev Memory := List (Nat × Nat)

/-- The canonical form of a store: addresses strictly rising, and no cell listed that holds `unlistedCell`, so that
equal stores are equal data. -/
abbrev Memory.wf (m : Memory) : Prop :=
  (m.map Prod.fst).Pairwise (· < ·) ∧ ∀ c ∈ m, c.2 ≠ unlistedCell

/-- R32: the symbol table, a finite partial map from opcode symbols to microcode addresses, by rising symbol.  A
symbol bound to address 0 is listed: it has an entry (R34; DEDUCED, log 16, safe). -/
abbrev SymbolTable := List (Nat × Nat)

/-- The canonical form of the symbol table: symbols strictly rising. -/
abbrev SymbolTable.wf (t : SymbolTable) : Prop := (t.map Prod.fst).Pairwise (· < ·)

/-- R35: the update register (MUR), "a 3-slot transient record". -/
structure UpdateRegister where
  address : Nat
  microOp : Nat
  symbol : Nat
  deriving DecidableEq, Repr

/-- R35, R159: the update register after a commit, and at launch. -/
def UpdateRegister.zero : UpdateRegister := ⟨0, 0, 0⟩

/-- R36: the record of a successfully attached device.  The offset is an integer, and so is the window's upper end,
which R178 computes with it (DESIGN CHOICE, log 9, safe). -/
structure DeviceMapping where
  minAddr : Nat
  maxAddr : Int
  addressOffset : Int
  readChannel : String
  writeChannel : String
  deriving DecidableEq, Repr

/-- R39: the two answers of a step that updates the state. -/
inductive Answer where
  /-- "continue" (true) -/
  | continues
  /-- "do not continue" (false): `stop` only -/
  | halts
  deriving DecidableEq, Repr

/-- The whole state of the machine. -/
structure State where
  /-- R5, R37: the parameters; no step changes them (log 1) -/
  cfg : Config
  /-- R21: the RAM address the next RAM access uses -/
  addressBus : Nat
  /-- R22: the Word moving between RAM, `ins` and `acc` -/
  dataBus : Nat
  /-- R23: the instruction word being executed, or any Word microcode puts there -/
  ins : Nat
  /-- R24: the RAM address of the macro-level instruction word to fetch next -/
  programCounter : Nat
  /-- R25: the accumulator -/
  acc : Nat
  /-- R27: the cursor, the microcode address the next step reads -/
  mcAddr : Nat
  /-- R30: RAM, addresses `0..lo_max` -/
  ram : Memory
  /-- R31: the microcode store, addresses `0..mc_addr_max`; a cell holds any natural number -/
  microcode : Memory
  /-- R32: the symbol table -/
  symtab : SymbolTable
  /-- R35: the update register -/
  mur : UpdateRegister
  /-- R36: the device mapping list, environment state; no step adds to it (R171) -/
  deviceMappings : List DeviceMapping
  /-- R39: the answer of the step that led to this state; no step reads it (R110, log 3) -/
  answer : Answer
  deriving DecidableEq, Repr

/-- R191 to R195: why a step raises Fatal.  Each ends the run and leaves the state as it was (R196, R197). -/
inductive Fault where
  /-- F1, R191: the fetched code is not in the table, raised by the decode stage of every step; or it is the reserved
  code and the policy is `fatal` (R107), raised by `reserved`.  SAFE: the machine stops (document, section 7 (a)). -/
  | unrecognisedMicroOp (code cursor : Nat)
  /-- F2, R192: a RAM access above `lo_max`, raised by `db_ram`, `ram_db` and `iomap`.  SAFE: the spec's choice D7. -/
  | ramAddressOutOfRange (address : Nat)
  /-- F3, R193: a fetch above `mc_addr_max`, raised by the fetch stage of every step.  SAFE: the spec's choice D6. -/
  | mcAddrOutOfRange (address : Nat)
  /-- F4, R194: a commit due to write a code above `mc_addr_max`, raised by `mur_mc`.  SAFE: the spec's choice D8. -/
  | mcWriteOutOfRange (address : Nat)
  deriving DecidableEq, Repr

/-- Why the model gives a step no meaning. -/
inductive Refusal where
  /-- an instruction with no meaning yet (no arm of `exec` answers it).  SAFE -/
  | notModelled (mnemonic : String)
  /-- R171, R12: raised by `iomap` when the device entry it names exists.  SAFE: "a refused run supports no claim" -/
  | deviceAttachNotModelled (index : Nat)
  /-- R183 (decision D15, OPEN): raised by `db_ram`, `ram_db` and `iomap` at an address inside a registered device
  mapping's window, which no step of this model registers (DESIGN CHOICE, log 8).  SAFE -/
  | deviceWindowNotModelled (address : Nat)
  /-- R7: raised by every step of a machine whose configuration is not valid.  SAFE: "a model refuses any other
  configuration" -/
  | invalidConfiguration
  deriving DecidableEq, Repr

/-- The outcome of an operation that yields a value. -/
abbrev Result (α : Type) := Host.Outcome α Fault Refusal

/-- R43, R220: the launch state of the model: `mc_addr = 0`, the update register zero and no device mapping as R43
says.  The rest R43 leaves to the host, and the model chooses (DESIGN CHOICE, unsafe): the document's example parameters
(log 2), registers zero (log 10), stores and symbol table empty (log 4), and the answer (log 3). -/
def State.reset : State where
  cfg := .reference
  addressBus := 0
  dataBus := 0
  ins := 0
  programCounter := 0
  acc := 0
  mcAddr := 0
  ram := []
  microcode := []
  symtab := []
  mur := .zero
  deviceMappings := []
  answer := .continues

end Sys2Proof.Machine
end

