-- ==== Sys2Proof/Machine/Ops.lean ====
section
/-! DEFINITION. The shared operations: writing a register, reading and writing the stores, raising Fatal, ending a
step, and fetching a micro-operation. -/

namespace Sys2Proof.Machine

/-! ## Registers (R20): each is written whole, through these -/

def State.setAddressBus (s : State) (v : Nat) : State := { s with addressBus := v }
def State.setDataBus (s : State) (v : Nat) : State := { s with dataBus := v }
def State.setIns (s : State) (v : Nat) : State := { s with ins := v }
def State.setProgramCounter (s : State) (v : Nat) : State := { s with programCounter := v }
def State.setAcc (s : State) (v : Nat) : State := { s with acc := v }
def State.setRam (s : State) (m : Memory) : State := { s with ram := m }
def State.setMicrocode (s : State) (m : Memory) : State := { s with microcode := m }
def State.setSymtab (s : State) (t : SymbolTable) : State := { s with symtab := t }
def State.setMur (s : State) (r : UpdateRegister) : State := { s with mur := r }
/-- R36, R179: only the environment adds a mapping. -/
def State.setDeviceMappings (s : State) (ms : List DeviceMapping) : State := { s with deviceMappings := ms }
/-- R100 stages 4 and 5: the cursor and the answer. -/
def State.setCursor (s : State) (target : Nat) (a : Answer) : State := { s with mcAddr := target, answer := a }

/-! ## Outcomes (R12) -/

/-- Go on with the value of an operation that gave one. -/
def andThen {α β : Type} (x : Result α) (f : α → Result β) : Result β :=
  match x with
  | .next a => f a
  | .fault r => .fault r
  | .refused r => .refused r

/-- TAKING AN EXCEPTION (R196, R197): `raise Fatal`.  The machine has no handler, no vector, no saved state and no
return (R198): the step writes nothing, not even the cursor, and the run is over.  The cause and its argument are in
the fault and nowhere in the state (R195). -/
def raiseFatal {α : Type} (f : Fault) : Result α := .fault f

/-- R100: end the step with the cursor at `target` and an answer. -/
def finish (s : State) (target : Nat) (a : Answer) : Result State := .next (s.setCursor target a)

/-- R103: "advance: sequential; continue".  The cursor does not wrap (R28). -/
def advance (s : State) : Result State := finish s (s.mcAddr + 1) .continues

/-! ## Cells by address -/

/-- The value listed at a key. -/
def cellFind (key : Nat) : List (Nat × Nat) → Option Nat
  | [] => none
  | (k, v) :: rest => if k = key then some v else cellFind key rest

/-- List `value` at `key`, in place of any value it had, keeping rising keys. -/
def cellSet (key value : Nat) : List (Nat × Nat) → List (Nat × Nat)
  | [] => [(key, value)]
  | (k, v) :: rest =>
    if key < k then (key, value) :: (k, v) :: rest
    else if key = k then (key, value) :: rest
    else (k, v) :: cellSet key value rest

/-- R52, R56: what the cell at an address holds. -/
def Memory.read (m : Memory) (a : Nat) : Nat := (cellFind a m).getD unlistedCell

/-- R53, R57: write one whole cell and no other, keeping the canonical form. -/
def Memory.write (m : Memory) (a : Nat) (v : Nat) : Memory :=
  if v = unlistedCell then m.filter (fun c => c.1 ≠ a) else cellSet a v m

/-! ## The symbol table (R33, R34) -/

/-- R33: the address bound to a symbol, 0 when it has no entry. -/
def symLookup (t : SymbolTable) (symbol : Nat) : Nat := (cellFind symbol t).getD 0

/-- R34: bind a symbol, replacing any earlier entry ("last write wins"). -/
def symInsert (t : SymbolTable) (symbol address : Nat) : SymbolTable := cellSet symbol address t

/-! ## RAM (R52 to R54) and the microcode store (R56, R57) -/

/-- R183: is the address inside a registered device mapping's window? -/
def inDeviceWindow (s : State) (a : Nat) : Bool :=
  s.deviceMappings.any fun m => decide (m.minAddr ≤ a) && decide ((a : Int) ≤ m.maxAddr)

/-- R54: a RAM access above `lo_max` is fatal.  Inside a device window the spec gives an access no meaning (R58, R183),
and the model refuses it (DESIGN CHOICE, log 8, safe). -/
def ramCheck (s : State) (a : Nat) : Result Unit :=
  if a ≤ s.cfg.loMax then
    if inDeviceWindow s a then .refused (.deviceWindowNotModelled a) else .next ()
  else raiseFatal (.ramAddressOutOfRange a)

/-- R52: `MemRead(a, 1)`. -/
def memRead (s : State) (a : Nat) : Result Nat :=
  andThen (ramCheck s a) fun _ => .next (s.ram.read a)

/-- R53: `MemWrite(a, 1, v)`, the whole Word, unclamped. -/
def memWrite (s : State) (a : Nat) (v : Nat) : Result State :=
  andThen (ramCheck s a) fun _ => .next (s.setRam (s.ram.write a v))

/-- R56: `McRead(a)`. -/
def mcRead (s : State) (a : Nat) : Result Nat :=
  if a ≤ s.cfg.mcAddrMax then .next (s.microcode.read a) else raiseFatal (.mcAddrOutOfRange a)

/-- R57: `McWrite(a, v)`; `v` is stored as given, recognised code or not. -/
def mcWrite (s : State) (a v : Nat) : Result State :=
  if a ≤ s.cfg.mcAddrMax then .next (s.setMicrocode (s.microcode.write a v))
  else raiseFatal (.mcWriteOutOfRange a)

/-! ## Fetch and decode (R100 stages 1 and 2) -/

/-- R101, R102, R104: fetch the cell at the cursor, then decode it; the fetch check comes first.  A configuration that
is not valid is refused before anything (R7; at which stage is a DESIGN CHOICE, log 15, safe). -/
def fetchInstr (s : State) : Result Instr :=
  if s.cfg.Valid then
    andThen (mcRead s s.mcAddr) fun c =>
      match decode s.cfg c with
      | .ok i => .next i
      | .error (.unrecognised c') => raiseFatal (.unrecognisedMicroOp c' s.mcAddr)
  else .refused .invalidConfiguration

/-- The state with a code placed in the cell the next fetch reads: the cell at the cursor, or, when the cursor is
beyond the store, cell 0 with the cursor moved there (DESIGN CHOICE, log 5, safe). -/
def storeForFetch (s : State) (code : Nat) : State :=
  if s.mcAddr ≤ s.cfg.mcAddrMax then s.setMicrocode (s.microcode.write s.mcAddr code)
  else (s.setMicrocode (s.microcode.write 0 code)).setCursor 0 s.answer

end Sys2Proof.Machine
end

