-- ==== Sys2Proof/Machine/Accumulator.lean ====
section
/-! DEFINITION. The accumulator micro-operations (spec/44_accumulator.md): each computes the exact integer result and
stores its clamp (R141). -/

namespace Sys2Proof.Machine

/-- R141: store the clamp of the exact result, and advance. -/
def accumulate (s : State) (z : Int) : Result State := advance (s.setAcc (sat s.cfg z))

/-- R142: `acc_0`. -/
def execAcc0 (s : State) : Result State := accumulate s 0

/-- R143: `plus`. -/
def execPlus (s : State) : Result State := accumulate s ((s.acc : Int) + (s.dataBus : Int))

/-- R144: `minus`; the difference is taken in the integers. -/
def execMinus (s : State) : Result State := accumulate s ((s.acc : Int) - (s.dataBus : Int))

/-- R145: `acc_inc`. -/
def execAccInc (s : State) : Result State := accumulate s ((s.acc : Int) + 1)

/-- R146: `acc_dec`; the difference is taken in the integers. -/
def execAccDec (s : State) : Result State := accumulate s ((s.acc : Int) - 1)

/-- R148: `db_acc`, clamped, so that the range of `acc` does not rest on the launch condition. -/
def execDbAcc (s : State) : Result State := accumulate s (s.dataBus : Int)

end Sys2Proof.Machine
end

