-- ==== Sys2Proof/Machine/Bus.lean ====
section
/-! DEFINITION. The bus and register transfers (spec/42_bus_transfers.md): the RAM data path, the RAM address path, and
the moves between `data_bus`, `ins` and `acc` that do not pass the accumulator's clamp. -/

namespace Sys2Proof.Machine

/-- R115: `db_ram` stores the data bus at the address bus. -/
def execDbRam (s : State) : Result State := andThen (memWrite s s.addressBus s.dataBus) advance

/-- R116: `ram_db` loads the data bus from the address bus. -/
def execRamDb (s : State) : Result State := andThen (memRead s s.addressBus) fun w => advance (s.setDataBus w)

/-- R117: `db_ins` copies the whole data bus to `ins`. -/
def execDbIns (s : State) : Result State := advance (s.setIns s.dataBus)

/-- R118: `ins_ab` puts `lo(ins)` on the address bus, with no range check. -/
def execInsAb (s : State) : Result State := advance (s.setAddressBus (lo s.cfg s.ins))

/-- R119: `pc_ab` copies the whole program counter to the address bus, with no range check. -/
def execPcAb (s : State) : Result State := advance (s.setAddressBus s.programCounter)

/-- R120: `acc_db` copies the accumulator to the data bus. -/
def execAccDb (s : State) : Result State := advance (s.setDataBus s.acc)

/-- R121: `ins_db` puts `lo(ins)` on the data bus. -/
def execInsDb (s : State) : Result State := advance (s.setDataBus (lo s.cfg s.ins))

end Sys2Proof.Machine
end

