-- ==== Sys2Proof/Machine/Control.lean ====
section
/-! DEFINITION. The control micro-operations (spec/41_engine_step_and_control.md): `nop`, `ins_mc`, the reserved code,
`mc_0`, `stop`. -/

namespace Sys2Proof.Machine

/-- R105: `nop` changes nothing but the cursor. -/
def execNop (s : State) : Result State := advance s

/-- R106: `ins_mc` jumps to the address bound to the opcode symbol of `ins`, 0 when it is absent.  Nothing saves the
old cursor. -/
def execInsMc (s : State) : Result State := finish s (symLookup s.symtab (hi s.cfg s.ins)) .continues

/-- R107: the reserved code is fatal or a `nop`, as the configuration says.  The code carried is the reserved row's
own, 6 under the default table (DEDUCED, log 17, safe). -/
def execReserved (s : State) : Result State :=
  match s.cfg.reserved6Policy with
  | .fatal => raiseFatal (.unrecognisedMicroOp (encode s.cfg .reserved) s.mcAddr)
  | .nop => advance s

/-- R108: `mc_0` jumps to microcode address 0. -/
def execMc0 (s : State) : Result State := finish s 0 .continues

/-- R109: `stop` advances like any other and answers `halt`. -/
def execStop (s : State) : Result State := finish s (s.mcAddr + 1) .halts

end Sys2Proof.Machine
end

