-- ==== Sys2Proof/Machine/Iomap.lean ====
section
/-! DEFINITION. `iomap` (spec/46_iomap_and_devices.md section 1). -/

namespace Sys2Proof.Machine

/-- R170, R171: `iomap` reads a device-entry index from RAM at `lo(ins)`.  An index that names no entry is a no-op;
one that names an entry calls the attachment protocol, to which the spec gives no meaning in the modelled block
(`refuse(DeviceAttachNotModelled)`). -/
def execIomap (s : State) : Result State :=
  andThen (memRead s (lo s.cfg s.ins)) fun idx =>
    match s.cfg.deviceEntries[idx]? with
    | none => advance s
    | some _ => .refused (.deviceAttachNotModelled idx)

end Sys2Proof.Machine
end

