-- ==== Sys2Proof/Machine/Flags.lean ====
section
/-! DEFINITION. Flags: the machine has none (spec/10_state.md R29: "no flags, no condition codes and no predicate
registers").  Saturation sets nothing.  What stands here is the one condition a micro-operation tests, on the current
value of `acc`. -/

namespace Sys2Proof.Machine

/-- R29, R132: the test of `if_0_pc_inc`. -/
def accIsZero (s : State) : Bool := s.acc == 0

end Sys2Proof.Machine
end

