-- ==== Sys2Proof/Machine/ProgramCounter.lean ====
section
/-! DEFINITION. The program-counter micro-operations (spec/43_program_counter.md).  `program_counter` is an unbounded
natural number: nothing here clamps, wraps or range-checks it (R130). -/

namespace Sys2Proof.Machine

/-- R131: `pc_inc`. -/
def execPcInc (s : State) : Result State := advance (s.setProgramCounter (s.programCounter + 1))

/-- R132: `if_0_pc_inc`; on the false branch only the cursor changes. -/
def execIf0PcInc (s : State) : Result State :=
  advance (if accIsZero s then s.setProgramCounter (s.programCounter + 1) else s)

/-- R133: `ins_pc` jumps to the absolute target `lo(ins)`. -/
def execInsPc (s : State) : Result State := advance (s.setProgramCounter (lo s.cfg s.ins))

end Sys2Proof.Machine
end

