-- ==== Sys2Proof/Machine/Update.lean ====
section
/-! DEFINITION. The microcode update protocol (spec/45_microcode_update.md): staging from `ins`, and the commit. -/

namespace Sys2Proof.Machine

/-- R156: `ins_mur1` stages the address, with no range check. -/
def execInsMur1 (s : State) : Result State := advance (s.setMur { s.mur with address := lo s.cfg s.ins })

/-- R158: `ins_mur2` stages the code and the symbol together, with no check of the code. -/
def execInsMur2 (s : State) : Result State :=
  advance (s.setMur { s.mur with microOp := lo s.cfg s.ins, symbol := hi s.cfg s.ins })

/-- R159: the code write of a commit, due unless the staged code is the sentinel `lo_max`. -/
def commitCode (s : State) : Result State :=
  if s.mur.microOp ≠ s.cfg.loMax then mcWrite s s.mur.address s.mur.microOp else .next s

/-- R159: the symbol binding of a commit, due unless the staged symbol is 0; the address is not checked. -/
def commitSymbol (s : State) : State :=
  if s.mur.symbol ≠ 0 then s.setSymtab (symInsert s.symtab s.mur.symbol s.mur.address) else s

/-- R159, R161: `mur_mc` writes the code, binds the symbol, zeroes the register.  A fatal code write (R160) leaves
everything as it was. -/
def execMurMc (s : State) : Result State :=
  andThen (commitCode s) fun s₁ => advance ((commitSymbol s₁).setMur .zero)

end Sys2Proof.Machine
end

