-- ==== Sys2Proof/Machine/Dispatch.lean ====
section
/-! DEFINITION. One arm per micro-operation: the dispatch of R100 stage 3. -/

namespace Sys2Proof.Machine

def exec (i : Instr) (s : State) : Host.Outcome State Fault Refusal :=
  match i with
  | .nop => Sys2Proof.Machine.execNop s
  | .dbRam => Sys2Proof.Machine.execDbRam s
  | .ramDb => Sys2Proof.Machine.execRamDb s
  | .dbIns => Sys2Proof.Machine.execDbIns s
  | .insAb => Sys2Proof.Machine.execInsAb s
  | .insMc => Sys2Proof.Machine.execInsMc s
  | .reserved => Sys2Proof.Machine.execReserved s
  | .mc0 => Sys2Proof.Machine.execMc0 s
  | .pcAb => Sys2Proof.Machine.execPcAb s
  | .pcInc => Sys2Proof.Machine.execPcInc s
  | .if0PcInc => Sys2Proof.Machine.execIf0PcInc s
  | .insPc => Sys2Proof.Machine.execInsPc s
  | .acc0 => Sys2Proof.Machine.execAcc0 s
  | .plus => Sys2Proof.Machine.execPlus s
  | .minus => Sys2Proof.Machine.execMinus s
  | .accDb => Sys2Proof.Machine.execAccDb s
  | .accInc => Sys2Proof.Machine.execAccInc s
  | .accDec => Sys2Proof.Machine.execAccDec s
  | .dbAcc => Sys2Proof.Machine.execDbAcc s
  | .stop => Sys2Proof.Machine.execStop s
  | .insDb => Sys2Proof.Machine.execInsDb s
  | .insMur1 => Sys2Proof.Machine.execInsMur1 s
  | .insMur2 => Sys2Proof.Machine.execInsMur2 s
  | .murMc => Sys2Proof.Machine.execMurMc s
  | .iomap => Sys2Proof.Machine.execIomap s

end Sys2Proof.Machine
end

