-- ==== Sys2Proof/Machine/Step.lean ====
section
/-! DEFINITION. One step of the engine (spec/41_engine_step_and_control.md R100). -/

namespace Sys2Proof.Machine

/-- R100: fetch and decode, then execute; each meaning ends its own step (cursor and answer). -/
def step (s : State) : Host.Outcome State Fault Refusal :=
  andThen (fetchInstr s) fun i => exec i s

/-- The host's probe: the code `w` placed where `step` fetches next (log 5).  A cell has no bits (R9), so the count of
bits plays no part. -/
def State.withFetchWord (s : State) (_nbits w : Nat) : State := storeForFetch s w

end Sys2Proof.Machine
end

