-- ==== Sys2Proof/Machine/Environment.lean ====
section
/-! DEFINITION. The data of the device attachment protocol (spec/46_iomap_and_devices.md sections 2 to 4), which the
spec marks ENVIRONMENT: what of it is a function the document gives.  No step of the machine calls these: the step that
would is refused (R171).  What the document leaves open of them is log 14's and log 18's (DESIGN CHOICE, safe). -/

namespace Sys2Proof.Machine

/-- R181: a frame is one length byte followed by that many raw bytes; a payload over 255 bytes is rejected before any
byte is sent. -/
def writeFrame (payload : List Byte) : Option (List Byte) :=
  if payload.length ≤ 255 then some (BitVec.ofNat 8 payload.length :: payload) else none

/-- R181: read one frame from a channel's bytes; answers the payload and the bytes left.  None where the channel does
not (yet) hold a whole frame. -/
def readFrame : List Byte → Option (List Byte × List Byte)
  | [] => none
  | n :: rest => if n.toNat ≤ rest.length then some (rest.take n.toNat, rest.drop n.toNat) else none

/-- R178: the mapping a successful handshake registers.  Where `requested_min_addr` comes from is OPEN (decision D23),
so it is an argument. -/
def attachedMapping (requestedMin deviceMin deviceMax : Nat) (readChannel writeChannel : String) : DeviceMapping where
  minAddr := requestedMin
  maxAddr := (deviceMax : Int) - ((deviceMin : Int) - (requestedMin : Int))
  addressOffset := (deviceMin : Int) - (requestedMin : Int)
  readChannel := readChannel
  writeChannel := writeChannel

/-- R178: the device's own address of a RAM address. -/
def DeviceMapping.deviceAddress (m : DeviceMapping) (a : Nat) : Int := (a : Int) + m.addressOffset

/-- R176 to R179: the environment's effect once the handshake's fields are read: a handshake that is not exactly two
fields is abandoned silently, any other adds one mapping, at the end of the list (the
place is not said: DESIGN CHOICE, log 18, safe).  Registers, RAM and stores are unchanged (R170). -/
def finishAttach (s : State) (requestedMin : Nat) (fields : List Nat) (readChannel writeChannel : String) : State :=
  match fields with
  | [deviceMin, deviceMax] =>
    s.setDeviceMappings
      (s.deviceMappings ++ [attachedMapping requestedMin deviceMin deviceMax readChannel writeChannel])
  | _ => s

/-- R180, R182: the fields of the handshake this machine sends when it is itself attached: its advertised window.
What an instance with no configured window sends is not said (R180; R220: the host supplies the window "optionally"); here
it sends no handshake (DESIGN CHOICE, log 20, safe). -/
def slaveHandshake (cfg : Config) : Option (List Nat) := cfg.ioWindow.map fun w => [w.1, w.2]

end Sys2Proof.Machine
end

