-- ==== Sys2Proof/Machine/Launch.lean ====
section
/-! DEFINITION. The host's interface outside the step: the configuration load (spec/10_state.md R38,
spec/70_reset_and_hazards.md R220 to R222) and the observation (R41). -/

namespace Sys2Proof.Machine

/-- R38: a microcode image's entry, "expressible either as a numeric code or by the symbolic names in the dispatch
table". -/
inductive ImageCode where
  | code (c : Nat)
  | name (mnemonic : String)
  deriving DecidableEq, Repr

/-- R38, R78: the numeric code of an image entry; a name that is no mnemonic has none. -/
def ImageCode.resolve (cfg : Config) : ImageCode → Option Nat
  | .code c => some c
  | .name m => (Instr.ofMnemonic m).map (encode cfg)

/-- The numeric codes of a microcode image, unless a name in it is no mnemonic. -/
def resolveImage (cfg : Config) : List (Nat × ImageCode) → Option (List (Nat × Nat))
  | [] => some []
  | (a, c) :: rest =>
    match c.resolve cfg, resolveImage cfg rest with
    | some n, some ns => some ((a, n) :: ns)
    | _, _ => none

/-- R220: what the host hands over before the first step.  Cells the images do not list hold `unlistedCell`; of two
entries for one cell the later counts (DESIGN CHOICE, log 4 and log 7, unsafe).  The cursor, the update register and the device mapping list are
not the host's to choose (R43). -/
structure LaunchImage where
  cfg : Config
  addressBus : Nat
  dataBus : Nat
  ins : Nat
  programCounter : Nat
  acc : Nat
  ram : List (Nat × Nat)
  microcode : List (Nat × ImageCode)
  symbols : List (Nat × Nat)
  deriving DecidableEq, Repr

/-- Write the entries of an image, in order. -/
def writeImage (m : Memory) : List (Nat × Nat) → Memory
  | [] => m
  | (a, v) :: rest => writeImage (m.write a v) rest

/-- Bind the entries of an image, in order. -/
def bindImage (t : SymbolTable) : List (Nat × Nat) → SymbolTable
  | [] => t
  | (k, a) :: rest => bindImage (symInsert t k a) rest

/-- R222: the launch condition, on the image and its resolved microcode.  `address_bus`, `program_counter`, the codes
and the symbol entries may be any natural numbers. -/
abbrev LaunchImage.Acceptable (img : LaunchImage) (codes : List (Nat × Nat)) : Prop :=
  img.cfg.Valid ∧ img.dataBus ≤ wordMax img.cfg ∧ img.ins ≤ wordMax img.cfg ∧ img.acc ≤ wordMax img.cfg
    ∧ (∀ c ∈ img.ram, c.1 ≤ img.cfg.loMax ∧ c.2 ≤ wordMax img.cfg)
    ∧ ∀ c ∈ codes, c.1 ≤ img.cfg.mcAddrMax

/-- R38, R220, R221: the state the first step starts in, or none where the launch condition fails ("A model states its
observation over well-formed launch states only"). -/
def launch (img : LaunchImage) : Option State :=
  match resolveImage img.cfg img.microcode with
  | none => none
  | some codes =>
    if img.Acceptable codes then
      some
        { cfg := img.cfg
          addressBus := img.addressBus
          dataBus := img.dataBus
          ins := img.ins
          programCounter := img.programCounter
          acc := img.acc
          mcAddr := 0
          ram := writeImage [] img.ram
          microcode := writeImage [] codes
          symtab := bindImage [] img.symbols
          mur := .zero
          deviceMappings := []
          answer := .continues }
    else none

/-- R41: the display reads `hi(acc)` and `lo(acc)` and changes nothing. -/
def display (s : State) : Nat × Nat := (hi s.cfg s.acc, lo s.cfg s.acc)

end Sys2Proof.Machine
end

