-- ==== Sys2Proof/Machine/Run.lean ====
section
/-! DEFINITION. A run (spec/41_engine_step_and_control.md R111): step until a step answers `halt` or raises Fatal. -/

namespace Sys2Proof.Machine

/-- The state a step leaves the machine in.  A step that raises Fatal changes nothing (R196).  Of a refused step no rule
says it (R12 gives it no meaning; R100 and R196 speak of Fatal only): that it changes nothing either is the MODEL's
(DESIGN CHOICE, log 19, unsafe for claims about the state of a refused run). -/
def stateAfter (s : State) : Result State → State
  | .next t => t
  | .fault _ => s
  | .refused _ => s

/-- R111: how a run ends, with the state it ends in. -/
inductive RunEnd where
  /-- a step answered `halt`; the state after it -/
  | halted (s : State)
  /-- a step raised Fatal; the state before it (R196) -/
  | aborted (why : Fault) (s : State)
  /-- a step the model gives no meaning; the state before it (DESIGN CHOICE, log 19, unsafe) -/
  | refused (why : Refusal) (s : State)
  /-- the step count ran out (the machine itself has no watchdog, R111); the state reached -/
  | unfinished (s : State)
  deriving DecidableEq, Repr

/-- The state a run ends in. -/
def RunEnd.state : RunEnd → State
  | .halted s => s
  | .aborted _ s => s
  | .refused _ s => s
  | .unfinished s => s

/-- R111: running to halt, for at most the given number of steps. -/
def runToHalt : Nat → State → RunEnd
  | 0, s => .unfinished s
  | n + 1, s =>
    match step s with
    | .next t =>
      match t.answer with
      | .continues => runToHalt n t
      | .halts => .halted t
    | .fault r => .aborted r (stateAfter s (.fault r))
    | .refused r => .refused r (stateAfter s (.refused r))

end Sys2Proof.Machine
end

