-- ==== Sys2Proof/Safety.lean ====
section
/-! DEFINITION. What counts as a good state, in the terms statements use. -/

namespace Sys2Proof.Machine

/-- R26: the value-range condition. -/
structure State.InRange (s : State) : Prop where
  dataBus : s.dataBus ≤ wordMax s.cfg
  ins : s.ins ≤ wordMax s.cfg
  acc : s.acc ≤ wordMax s.cfg
  ram : ∀ a, a ≤ s.cfg.loMax → s.ram.read a ≤ wordMax s.cfg

/-- The state is well formed: a valid configuration (R7), the stores in canonical form and inside their address ranges
(R30, R31), the values in range (R26), the update register holding digit groups (R35, R157) and no device mapping
(R36). -/
structure State.Inv (s : State) : Prop where
  valid : s.cfg.Valid
  ramWf : s.ram.wf
  ramSize : ∀ c ∈ s.ram, c.1 ≤ s.cfg.loMax
  microcodeWf : s.microcode.wf
  microcodeSize : ∀ c ∈ s.microcode, c.1 ≤ s.cfg.mcAddrMax
  symtabWf : s.symtab.wf
  range : s.InRange
  murAddress : s.mur.address < modulus s.cfg
  murMicroOp : s.mur.microOp < modulus s.cfg
  murSymbol : s.mur.symbol ≤ s.cfg.hiMax
  noMappings : s.deviceMappings = []

/-- R222: a well-formed launch state (with the model's canonical forms). -/
structure State.LaunchOk (s : State) : Prop where
  valid : s.cfg.Valid
  ramWf : s.ram.wf
  ramSize : ∀ c ∈ s.ram, c.1 ≤ s.cfg.loMax
  microcodeWf : s.microcode.wf
  microcodeSize : ∀ c ∈ s.microcode, c.1 ≤ s.cfg.mcAddrMax
  symtabWf : s.symtab.wf
  range : s.InRange
  mcAddr : s.mcAddr = 0
  mur : s.mur = .zero
  noMappings : s.deviceMappings = []

/-- When a micro-operation completes: the conditions, on the state alone, under which it neither raises Fatal nor is
refused.  They are the spec's decisions, D7 (R54), D3 (R107), D8 (R160) and D14 (R170, R171), and for a device window the
model's choice (R58 and R183 leave it open; log 8).  Every other micro-operation always completes. -/
def State.Ready (s : State) : Instr → Prop
  | .dbRam | .ramDb => s.addressBus ≤ s.cfg.loMax ∧ inDeviceWindow s s.addressBus = false
  | .reserved => s.cfg.reserved6Policy = .nop
  | .murMc => s.mur.microOp ≠ s.cfg.loMax → s.mur.address ≤ s.cfg.mcAddrMax
  | .iomap =>
    lo s.cfg s.ins ≤ s.cfg.loMax ∧ inDeviceWindow s (lo s.cfg s.ins) = false ∧
      s.cfg.deviceEntries.length ≤ s.ram.read (lo s.cfg s.ins)
  | .nop | .dbIns | .insAb | .insMc | .mc0 | .pcAb | .pcInc | .if0PcInc | .insPc | .acc0 | .plus | .minus | .accDb
  | .accInc | .accDec | .dbAcc | .stop | .insDb | .insMur1 | .insMur2 => True

end Sys2Proof.Machine
end

