-- ==== Sys2Proof/Certificates/Slice0/Obligations.lean ====
section
/-! DEFINITION. The statements for the provers, from the spec's numbered rules.  Wherever a rule's pseudocode writes
registers, the statement gives the whole next state, so that it says what is left unchanged too.  Premises about device
windows only matter in states with a device mapping, which no step of the model makes (R36, R171; log 8); what happens
there is stated beside them. -/

open Sys2Proof Sys2Proof.Machine

/-! ## The word arithmetic unit -/

/-- R94. -/
def Obligations.DigitCountIsTheDecimalLength : Prop :=
  (∀ n, 1 ≤ n →
    1 ≤ ndigits n ∧ 10 ^ (ndigits n - 1) ≤ n ∧ n < 10 ^ ndigits n ∧
      ∀ k, 1 ≤ k → 10 ^ (k - 1) ≤ n → n < 10 ^ k → k = ndigits n) ∧
  ndigits 1 = 1 ∧ ndigits 9 = 1 ∧ ndigits 10 = 2 ∧ ndigits 999 = 3 ∧ ndigits 1000 = 4

/-- R90: the formula, its range, its corner cases, that no step changes it, and that `lo_max = 0` is refused (R7;
before the fetch, log 15). -/
def Obligations.ModulusIsThePowerOfTenAboveLoMax : Prop :=
  (∀ cfg : Config, 1 ≤ cfg.loMax →
    modulus cfg = 10 ^ ndigits cfg.loMax ∧ 10 ≤ modulus cfg ∧ cfg.loMax < modulus cfg ∧
      modulus cfg ≤ 10 * cfg.loMax) ∧
  (∀ cfg : Config,
    (cfg.loMax = 9 → modulus cfg = 10) ∧ (cfg.loMax = 10 → modulus cfg = 100) ∧
    (cfg.loMax = 99 → modulus cfg = 100) ∧ (cfg.loMax = 100 → modulus cfg = 1000) ∧
    (cfg.loMax = 500 → modulus cfg = 1000) ∧ (cfg.loMax = 999 → modulus cfg = 1000)) ∧
  (∀ s t : State, step s = .next t → modulus t.cfg = modulus s.cfg) ∧
  ∀ s : State, s.cfg.loMax = 0 → step s = .refused .invalidConfiguration

/-- R91, R92, R93: the two digit groups, their ranges and corner cases, and recomposition. -/
def Obligations.DigitGroupsSplitAndRecompose : Prop :=
  ∀ cfg : Config, 1 ≤ cfg.loMax →
    (∀ v : Nat,
      hi cfg v = v / modulus cfg ∧ lo cfg v = v % modulus cfg ∧
      hi cfg v * modulus cfg + lo cfg v = v ∧ recompose cfg (hi cfg v) (lo cfg v) = v ∧
      lo cfg v < modulus cfg ∧ (v ≤ wordMax cfg → hi cfg v ≤ cfg.hiMax)) ∧
    (∀ h l : Nat, l < modulus cfg → hi cfg (recompose cfg h l) = h ∧ lo cfg (recompose cfg h l) = l) ∧
    recompose cfg 0 0 = 0 ∧ recompose cfg cfg.hiMax cfg.loMax = wordMax cfg ∧
    hi cfg 0 = 0 ∧ hi cfg (modulus cfg - 1) = 0 ∧ hi cfg (modulus cfg) = 1 ∧ hi cfg (wordMax cfg) = cfg.hiMax ∧
    lo cfg 0 = 0 ∧ lo cfg (modulus cfg - 1) = modulus cfg - 1 ∧ lo cfg (modulus cfg) = 0 ∧
    lo cfg (wordMax cfg) = cfg.loMax

/-- The definition in R95: the clamp of an integer, exact inside the range and at the bound outside it. -/
def Obligations.SaturationClampsIntegers : Prop :=
  ∀ (cfg : Config) (z : Int),
    (z < 0 → sat cfg z = 0) ∧
    (0 ≤ z → z ≤ (wordMax cfg : Int) → (sat cfg z : Int) = z) ∧
    ((wordMax cfg : Int) < z → sat cfg z = wordMax cfg) ∧
    sat cfg z ≤ wordMax cfg

/-! ## Decoding -/

/-- R71 to R73 over every valid configuration: encoding then decoding gives the micro-operation back, decoding then
encoding gives the code back, and every other code is rejected under its own name. -/
def Obligations.DecodeAndEncodeAgree : Prop :=
  ∀ cfg : Config, cfg.Valid →
    (∀ i : Instr, decode cfg (encode cfg i) = .ok i) ∧
    (∀ (c : Nat) (i : Instr), decode cfg c = .ok i → encode cfg i = c) ∧
    ∀ c c' : Nat,
      decode cfg c = .error (.unrecognised c') ↔ c' = c ∧ ∀ i : Instr, encode cfg i ≠ c

/-- R73 with the default code table (the numbers are the spec's decision D2): each row's code, and everything from 25
up. -/
def Obligations.DefaultCodesDecodeToTheirRows : Prop :=
  (∀ c i, (c, i) ∈
      [(0, Instr.nop), (1, .dbRam), (2, .ramDb), (3, .dbIns), (4, .insAb), (5, .insMc), (6, .reserved), (7, .mc0),
       (8, .pcAb), (9, .pcInc), (10, .if0PcInc), (11, .insPc), (12, .acc0), (13, .plus), (14, .minus), (15, .accDb),
       (16, .accInc), (17, .accDec), (18, .dbAcc), (19, .stop), (20, .insDb), (21, .insMur1), (22, .insMur2),
       (23, .murMc), (24, .iomap)] →
    decode .reference c = .ok i) ∧
  ∀ c, 25 ≤ c → decode .reference c = .error (.unrecognised c)

/-- R78: the 24 mnemonics "spelled exactly as" in R72, a mnemonic names one micro-operation, each micro-operation but
the reserved one has one, and the reserved code has none. -/
def Obligations.MnemonicsNameTheMicroOps : Prop :=
  (∀ i name, (i, name) ∈
      [(Instr.nop, "nop"), (.dbRam, "db_ram"), (.ramDb, "ram_db"), (.dbIns, "db_ins"), (.insAb, "ins_ab"),
       (.insMc, "ins_mc"), (.mc0, "mc_0"), (.pcAb, "pc_ab"), (.pcInc, "pc_inc"), (.if0PcInc, "if_0_pc_inc"),
       (.insPc, "ins_pc"), (.acc0, "acc_0"), (.plus, "plus"), (.minus, "minus"), (.accDb, "acc_db"),
       (.accInc, "acc_inc"), (.accDec, "acc_dec"), (.dbAcc, "db_acc"), (.stop, "stop"), (.insDb, "ins_db"),
       (.insMur1, "ins_mur1"), (.insMur2, "ins_mur2"), (.murMc, "mur_mc"), (.iomap, "iomap")] →
    i.mnemonic = some name) ∧
  (∀ (i : Instr) (name : String), i.mnemonic = some name ↔ Instr.ofMnemonic name = some i) ∧
  (∀ i : Instr, i ≠ .reserved → ∃ name, i.mnemonic = some name) ∧
  Instr.reserved.mnemonic = none

/-! ## The step -/

/-- R100: when the cell at the cursor decodes, the step is that micro-operation's meaning, nothing added. -/
def Obligations.StepRunsTheDecodedMicroOp : Prop :=
  ∀ (s : State) (i : Instr), s.cfg.Valid → s.mcAddr ≤ s.cfg.mcAddrMax →
    decode s.cfg (s.microcode.read s.mcAddr) = .ok i → step s = exec i s

/-- R101, R102, R104, R199: the fetch range check comes first, then decoding.  (Of an invalid configuration nothing is
said here: R7, log 15, log 6.) -/
def Obligations.FetchAndDecodeFaults : Prop :=
  ∀ s : State, s.cfg.Valid →
    (s.cfg.mcAddrMax < s.mcAddr → step s = .fault (.mcAddrOutOfRange s.mcAddr)) ∧
    (s.mcAddr ≤ s.cfg.mcAddrMax → (∀ i, encode s.cfg i ≠ s.microcode.read s.mcAddr) →
      step s = .fault (.unrecognisedMicroOp (s.microcode.read s.mcAddr) s.mcAddr))

/-- R195, the complete table of causes: which micro-operation raises which Fatal, and exactly when; and the causes a
step has beside them.  All but the unrecognised code are the spec's decisions D3, D6, D7 and D8; that the reserved row's
Fatal carries that row's code is log 17's.  That a step of an invalid configuration raises none, not even with the cursor
beyond the store, is the model's: R7 has it refused, before the fetch (DESIGN CHOICE, log 15), and a table with two rows
of one code counts as invalid (DEDUCED, log 6). -/
def Obligations.FaultsAreExactlyTheTable : Prop :=
  (∀ (i : Instr) (s : State) (f : Fault), exec i s = .fault f ↔
    (i = .reserved ∧ s.cfg.reserved6Policy = .fatal ∧
      f = .unrecognisedMicroOp (encode s.cfg .reserved) s.mcAddr) ∨
    ((i = .dbRam ∨ i = .ramDb) ∧ s.cfg.loMax < s.addressBus ∧ f = .ramAddressOutOfRange s.addressBus) ∨
    (i = .iomap ∧ s.cfg.loMax < lo s.cfg s.ins ∧ f = .ramAddressOutOfRange (lo s.cfg s.ins)) ∨
    (i = .murMc ∧ s.mur.microOp ≠ s.cfg.loMax ∧ s.cfg.mcAddrMax < s.mur.address ∧
      f = .mcWriteOutOfRange s.mur.address)) ∧
  ∀ (s : State) (f : Fault), step s = .fault f ↔
    s.cfg.Valid ∧
      ((s.cfg.mcAddrMax < s.mcAddr ∧ f = .mcAddrOutOfRange s.mcAddr) ∨
       (s.mcAddr ≤ s.cfg.mcAddrMax ∧ (∀ i, encode s.cfg i ≠ s.microcode.read s.mcAddr) ∧
          f = .unrecognisedMicroOp (s.microcode.read s.mcAddr) s.mcAddr) ∨
       (s.mcAddr ≤ s.cfg.mcAddrMax ∧
          ∃ i, encode s.cfg i = s.microcode.read s.mcAddr ∧ exec i s = .fault f))

/-- Exactly when a micro-operation, and when a step, is refused: an existing device entry (R171, the spec's decision
D14), an access inside a device window (the model's choice where R183 leaves it open, log 8), and, for a step, an invalid
configuration (R7; before the fetch, log 15; a table with two rows of one code counts as invalid, log 6). -/
def Obligations.RefusalsAreExactlyThese : Prop :=
  (∀ (i : Instr) (s : State) (r : Refusal), exec i s = .refused r ↔
    ((i = .dbRam ∨ i = .ramDb) ∧ s.addressBus ≤ s.cfg.loMax ∧ inDeviceWindow s s.addressBus = true ∧
      r = .deviceWindowNotModelled s.addressBus) ∨
    (i = .iomap ∧ lo s.cfg s.ins ≤ s.cfg.loMax ∧ inDeviceWindow s (lo s.cfg s.ins) = true ∧
      r = .deviceWindowNotModelled (lo s.cfg s.ins)) ∨
    (i = .iomap ∧ lo s.cfg s.ins ≤ s.cfg.loMax ∧ inDeviceWindow s (lo s.cfg s.ins) = false ∧
      s.ram.read (lo s.cfg s.ins) < s.cfg.deviceEntries.length ∧
      r = .deviceAttachNotModelled (s.ram.read (lo s.cfg s.ins)))) ∧
  ∀ (s : State) (r : Refusal), step s = .refused r ↔
    (¬ s.cfg.Valid ∧ r = .invalidConfiguration) ∨
    (s.cfg.Valid ∧ s.mcAddr ≤ s.cfg.mcAddrMax ∧
      ∃ i, encode s.cfg i = s.microcode.read s.mcAddr ∧ exec i s = .refused r)

/-- Every micro-operation completes, exactly when it is ready (`State.Ready`).  The conditions are the spec's decisions
D3 (the reserved row), D7 (RAM above `lo_max`), D8 (a commit above `mc_addr_max`) and D14 (an existing device entry); that
an access inside a device window does not complete is the model's choice (R58 and R183 leave it open; log 8). -/
def Obligations.EveryMicroOpCompletesWhenReady : Prop :=
  ∀ (i : Instr) (s : State), (∃ t, exec i s = .next t) ↔ s.Ready i

/-! ## What each micro-operation does -/

/-- R105, R106, R108: `nop`, `ins_mc` on a bound and on an absent symbol, `mc_0`; nothing but the cursor moves. -/
def Obligations.ControlMicroOpsMoveTheCursor : Prop :=
  ∀ s : State,
    exec .nop s = .next { s with mcAddr := s.mcAddr + 1, answer := .continues } ∧
    exec .insMc s =
      .next { s with mcAddr := symLookup s.symtab (hi s.cfg s.ins), answer := .continues } ∧
    (∀ a, cellFind (s.ins / modulus s.cfg) s.symtab = some a →
      exec .insMc s = .next { s with mcAddr := a, answer := .continues }) ∧
    (cellFind (s.ins / modulus s.cfg) s.symtab = none →
      exec .insMc s = .next { s with mcAddr := 0, answer := .continues }) ∧
    exec .mc0 s = .next { s with mcAddr := 0, answer := .continues }

/-- R109: `stop` answers `halt`; that the cursor advances is the spec's decision D13. -/
def Obligations.StopHaltsAndAdvances : Prop :=
  ∀ s : State, exec .stop s = .next { s with mcAddr := s.mcAddr + 1, answer := .halts }

/-- R107: the reserved code under each policy (the spec's decision D3), and the reference configuration's.  The Fatal
carries the cursor beside the code as R191 and R195 have it, and the code is the one the configuration gives the reserved
row, R107's 6 under the default table (DEDUCED, log 17). -/
def Obligations.ReservedCodeFollowsThePolicy : Prop :=
  Config.reference.reserved6Policy = .fatal ∧
  ∀ s : State,
    (s.cfg.reserved6Policy = .fatal →
      exec .reserved s = .fault (.unrecognisedMicroOp (encode s.cfg .reserved) s.mcAddr)) ∧
    (s.cfg.reserved6Policy = .nop →
      exec .reserved s = .next { s with mcAddr := s.mcAddr + 1, answer := .continues } ∧
      exec .reserved s = exec .nop s)

/-- R115: the store; its range fault (the spec's decision D7); the refusal in a device window (log 8). -/
def Obligations.DbRamStoresTheDataBus : Prop :=
  ∀ s : State,
    (s.addressBus ≤ s.cfg.loMax → inDeviceWindow s s.addressBus = false →
      ∃ t, exec .dbRam s = .next t ∧ t.ram.read s.addressBus = s.dataBus ∧
        (∀ a, a ≠ s.addressBus → t.ram.read a = s.ram.read a) ∧
        t = { s with ram := t.ram, mcAddr := s.mcAddr + 1, answer := .continues }) ∧
    (s.cfg.loMax < s.addressBus → exec .dbRam s = .fault (.ramAddressOutOfRange s.addressBus)) ∧
    (s.addressBus ≤ s.cfg.loMax → inDeviceWindow s s.addressBus = true →
      exec .dbRam s = .refused (.deviceWindowNotModelled s.addressBus))

/-- R116: the load; its range fault (the spec's decision D7); the refusal in a device window (log 8). -/
def Obligations.RamDbLoadsTheDataBus : Prop :=
  ∀ s : State,
    (s.addressBus ≤ s.cfg.loMax → inDeviceWindow s s.addressBus = false →
      exec .ramDb s =
        .next { s with dataBus := s.ram.read s.addressBus, mcAddr := s.mcAddr + 1, answer := .continues }) ∧
    (s.cfg.loMax < s.addressBus → exec .ramDb s = .fault (.ramAddressOutOfRange s.addressBus)) ∧
    (s.addressBus ≤ s.cfg.loMax → inDeviceWindow s s.addressBus = true →
      exec .ramDb s = .refused (.deviceWindowNotModelled s.addressBus))

/-- R117 to R121: the register moves, none of which can stop. -/
def Obligations.RegisterMovesCopyTheirSource : Prop :=
  ∀ s : State,
    exec .dbIns s = .next { s with ins := s.dataBus, mcAddr := s.mcAddr + 1, answer := .continues } ∧
    exec .insAb s =
      .next { s with addressBus := s.ins % modulus s.cfg, mcAddr := s.mcAddr + 1, answer := .continues } ∧
    exec .pcAb s =
      .next { s with addressBus := s.programCounter, mcAddr := s.mcAddr + 1, answer := .continues } ∧
    exec .accDb s = .next { s with dataBus := s.acc, mcAddr := s.mcAddr + 1, answer := .continues } ∧
    exec .insDb s =
      .next { s with dataBus := s.ins % modulus s.cfg, mcAddr := s.mcAddr + 1, answer := .continues }

/-- R131, R132, R133: the program counter, unclamped and unwrapped. -/
def Obligations.ProgramCounterMicroOps : Prop :=
  ∀ s : State,
    exec .pcInc s =
      .next { s with programCounter := s.programCounter + 1, mcAddr := s.mcAddr + 1, answer := .continues } ∧
    (s.acc = 0 → exec .if0PcInc s =
      .next { s with programCounter := s.programCounter + 1, mcAddr := s.mcAddr + 1, answer := .continues }) ∧
    (s.acc ≠ 0 → exec .if0PcInc s = .next { s with mcAddr := s.mcAddr + 1, answer := .continues }) ∧
    exec .insPc s =
      .next { s with programCounter := s.ins % modulus s.cfg, mcAddr := s.mcAddr + 1, answer := .continues }

/-- R142 to R146, R148: each result is the exact one clamped to `0..word_max`, written with natural-number minimum and
truncated difference (R141), whatever `acc` and `data_bus` hold. -/
def Obligations.AccumulatorMicroOpsClamp : Prop :=
  ∀ s : State,
    exec .acc0 s = .next { s with acc := 0, mcAddr := s.mcAddr + 1, answer := .continues } ∧
    exec .plus s =
      .next { s with acc := min (s.acc + s.dataBus) (wordMax s.cfg), mcAddr := s.mcAddr + 1,
                     answer := .continues } ∧
    exec .minus s =
      .next { s with acc := min (s.acc - s.dataBus) (wordMax s.cfg), mcAddr := s.mcAddr + 1,
                     answer := .continues } ∧
    (s.acc ≤ wordMax s.cfg → exec .minus s =
      .next { s with acc := if s.dataBus ≤ s.acc then s.acc - s.dataBus else 0, mcAddr := s.mcAddr + 1,
                     answer := .continues }) ∧
    exec .accInc s =
      .next { s with acc := min (s.acc + 1) (wordMax s.cfg), mcAddr := s.mcAddr + 1, answer := .continues } ∧
    exec .accDec s =
      .next { s with acc := min (s.acc - 1) (wordMax s.cfg), mcAddr := s.mcAddr + 1, answer := .continues } ∧
    exec .dbAcc s =
      .next { s with acc := min s.dataBus (wordMax s.cfg), mcAddr := s.mcAddr + 1, answer := .continues }

/-- R156, R158: staging, unchecked. -/
def Obligations.StagingFillsTheUpdateRegister : Prop :=
  ∀ s : State,
    exec .insMur1 s =
      .next { s with mur := { s.mur with address := s.ins % modulus s.cfg }, mcAddr := s.mcAddr + 1,
                     answer := .continues } ∧
    exec .insMur2 s =
      .next { s with mur := { s.mur with microOp := s.ins % modulus s.cfg, symbol := s.ins / modulus s.cfg },
                     mcAddr := s.mcAddr + 1, answer := .continues }

/-- R159, R160, R162: the four outcomes of a commit, and its one fault (the spec's decision D8). -/
def Obligations.CommitAppliesTheUpdateRegister : Prop :=
  ∀ s : State,
    ((s.mur.microOp ≠ s.cfg.loMax → s.mur.address ≤ s.cfg.mcAddrMax) →
      ∃ t, exec .murMc s = .next t ∧
        (∀ a, t.microcode.read a =
          if s.mur.microOp ≠ s.cfg.loMax ∧ a = s.mur.address then s.mur.microOp else s.microcode.read a) ∧
        (∀ k, cellFind k t.symtab =
          if s.mur.symbol ≠ 0 ∧ k = s.mur.symbol then some s.mur.address else cellFind k s.symtab) ∧
        (s.mur.microOp = s.cfg.loMax → t.microcode = s.microcode) ∧
        (s.mur.symbol = 0 → t.symtab = s.symtab) ∧
        t = { s with microcode := t.microcode, symtab := t.symtab, mur := ⟨0, 0, 0⟩, mcAddr := s.mcAddr + 1,
                     answer := .continues }) ∧
    (s.mur.microOp ≠ s.cfg.loMax → s.cfg.mcAddrMax < s.mur.address →
      exec .murMc s = .fault (.mcWriteOutOfRange s.mur.address))

/-- R170: an absent device entry is a no-op.  By the spec's decisions an existing one is refused (R171, D14) and an index
address above `lo_max` is fatal (D7); the refusal in a device window is log 8's. -/
def Obligations.IomapLooksUpItsDeviceEntry : Prop :=
  ∀ s : State,
    (lo s.cfg s.ins ≤ s.cfg.loMax → inDeviceWindow s (lo s.cfg s.ins) = false →
      (s.cfg.deviceEntries.length ≤ s.ram.read (lo s.cfg s.ins) →
        exec .iomap s = .next { s with mcAddr := s.mcAddr + 1, answer := .continues }) ∧
      (s.ram.read (lo s.cfg s.ins) < s.cfg.deviceEntries.length →
        exec .iomap s = .refused (.deviceAttachNotModelled (s.ram.read (lo s.cfg s.ins))))) ∧
    (s.cfg.loMax < lo s.cfg s.ins → exec .iomap s = .fault (.ramAddressOutOfRange (lo s.cfg s.ins))) ∧
    (lo s.cfg s.ins ≤ s.cfg.loMax → inDeviceWindow s (lo s.cfg s.ins) = true →
      exec .iomap s = .refused (.deviceWindowNotModelled (lo s.cfg s.ins)))

/-! ## Rules about the whole machine -/

/-- R21 to R25, R30, R31, R34 to R37: what writes each piece of state. -/
def Obligations.StateIsWrittenOnlyByItsMicroOps : Prop :=
  ∀ (i : Instr) (s t : State), exec i s = .next t →
    (t.addressBus ≠ s.addressBus → i = .insAb ∨ i = .pcAb) ∧
    (t.dataBus ≠ s.dataBus → i = .ramDb ∨ i = .accDb ∨ i = .insDb) ∧
    (t.ins ≠ s.ins → i = .dbIns) ∧
    (t.programCounter ≠ s.programCounter → i = .pcInc ∨ i = .if0PcInc ∨ i = .insPc) ∧
    (t.acc ≠ s.acc →
      i = .acc0 ∨ i = .plus ∨ i = .minus ∨ i = .accInc ∨ i = .accDec ∨ i = .dbAcc) ∧
    (t.ram ≠ s.ram → i = .dbRam) ∧
    (t.microcode ≠ s.microcode → i = .murMc) ∧
    (t.symtab ≠ s.symtab → i = .murMc) ∧
    (t.mur ≠ s.mur → i = .insMur1 ∨ i = .insMur2 ∨ i = .murMc) ∧
    t.cfg = s.cfg ∧ t.deviceMappings = s.deviceMappings

/-- R58: a step changes at most one RAM cell, one microcode cell and one symbol, and only the one it is aimed at.  (In a
state with a device mapping, which no step makes, this of RAM is the model's: log 8.) -/
def Obligations.AStepChangesOnlyTheAddressedCells : Prop :=
  ∀ s t : State, step s = .next t →
    (∀ a, a ≠ s.addressBus → t.ram.read a = s.ram.read a) ∧
    (∀ a, a ≠ s.mur.address → t.microcode.read a = s.microcode.read a) ∧
    ∀ k, k ≠ s.mur.symbol → cellFind k t.symtab = cellFind k s.symtab

/-- R28: the cursor after each micro-operation, the answer, that a Fatal moves nothing (a run aborts exactly when a step
of it raises Fatal, and ends in the state before that step: R111, R196), and that the cursor does not wrap at the top of
the store. -/
def Obligations.CursorAfterEachMicroOp : Prop :=
  (∀ (i : Instr) (s t : State), exec i s = .next t →
    t.mcAddr =
      (if i = .insMc then symLookup s.symtab (hi s.cfg s.ins) else if i = .mc0 then 0 else s.mcAddr + 1) ∧
    t.answer = if i = .stop then .halts else .continues) ∧
  (∀ (n : Nat) (s t : State) (f : Fault), runToHalt n s = .aborted f t ↔
    ∃ m, m < n ∧ runToHalt m s = .unfinished t ∧ step t = .fault f) ∧
  ∀ s t : State, step s = .next t → t.mcAddr = s.cfg.mcAddrMax + 1 →
    step t = .fault (.mcAddrOutOfRange (s.cfg.mcAddrMax + 1))

/-- R109 (the document's property 6): a step answers `halt` exactly when the cell it fetched is `stop`. -/
def Obligations.OnlyStopHalts : Prop :=
  ∀ s t : State, step s = .next t →
    (t.answer = .halts ↔ s.microcode.read s.mcAddr = encode s.cfg .stop)

/-- R110: no step depends on the answer of the step before it. -/
def Obligations.NoMemoryOfHavingHalted : Prop :=
  ∀ (s : State) (a : Answer), step { s with answer := a } = step s

/-- R26, the value-range invariant, with its consequences for the upper digit groups. -/
def Obligations.ValuesStayWithinWordMax : Prop :=
  ∀ s t : State, s.InRange → step s = .next t →
    t.InRange ∧ hi t.cfg t.ins ≤ t.cfg.hiMax ∧ hi t.cfg t.acc ≤ t.cfg.hiMax ∧
      hi s.cfg s.ins ≤ s.cfg.hiMax ∧ hi s.cfg s.acc ≤ s.cfg.hiMax

/-- Every step keeps the state well formed: stores canonical and inside their ranges, values and update register in
range, configuration valid, no device mapped. -/
def Obligations.EveryStepKeepsTheStateWellFormed : Prop :=
  ∀ s t : State, s.Inv → step s = .next t → t.Inv

/-- A run from any well-formed state, of any length, however it ends, ends in a well-formed state of the same
configuration, and is refused only by an existing device entry.  That a refused run ends in the state before the refused
step is the model's choice (log 19). -/
def Obligations.RunsStayWellFormed : Prop :=
  ∀ (n : Nat) (s : State), s.Inv →
    (runToHalt n s).state.Inv ∧ (runToHalt n s).state.cfg = s.cfg ∧
      ∀ r t, runToHalt n s = .refused r t →
        ∃ idx, r = .deviceAttachNotModelled idx ∧ idx < s.cfg.deviceEntries.length

/-- R43 for the model's reset state, and that the launch condition implies the invariant.  The reset state's parameters
(log 2), zero registers (log 10) and empty stores and symbol table, whose unlisted cells hold 0 (log 4), are the model's
choice, and that it meets the launch condition rests on all three. -/
def Obligations.ResetIsAWellFormedLaunchState : Prop :=
  State.reset.LaunchOk ∧ State.reset.mcAddr = 0 ∧ State.reset.mur = ⟨0, 0, 0⟩ ∧ State.reset.deviceMappings = [] ∧
  ∀ s : State, s.LaunchOk → s.Inv

/-- R222 and R43, for the load: it succeeds exactly on acceptable images; the state it makes meets the launch condition
and holds what the image says: each listed cell and symbol its last entry (log 7), each other cell of either store
`unlistedCell` (log 4), each other symbol no entry. -/
def Obligations.LaunchMeetsTheLaunchCondition : Prop :=
  (∀ img : LaunchImage, (∃ s, launch img = some s) ↔
    ∃ codes, resolveImage img.cfg img.microcode = some codes ∧ img.Acceptable codes) ∧
  ∀ (img : LaunchImage) (s : State), launch img = some s →
    s.LaunchOk ∧ s.cfg = img.cfg ∧ s.addressBus = img.addressBus ∧ s.dataBus = img.dataBus ∧ s.ins = img.ins ∧
    s.programCounter = img.programCounter ∧ s.acc = img.acc ∧
    (∀ a, a ∉ img.ram.map Prod.fst → s.ram.read a = unlistedCell) ∧
    (∀ before after a v, img.ram = before ++ (a, v) :: after → a ∉ after.map Prod.fst → s.ram.read a = v) ∧
    (∀ a, a ∉ img.microcode.map Prod.fst → s.microcode.read a = unlistedCell) ∧
    (∀ before after a c n, img.microcode = before ++ (a, c) :: after → a ∉ after.map Prod.fst →
      c.resolve img.cfg = some n → s.microcode.read a = n) ∧
    (∀ k, k ∉ img.symbols.map Prod.fst → cellFind k s.symtab = none) ∧
    ∀ before after k a, img.symbols = before ++ (k, a) :: after → k ∉ after.map Prod.fst →
      cellFind k s.symtab = some a

/-- R34, with the lookup of R33: an absent symbol looks up to 0; an insertion replaces the entry of its symbol and no
other; only a commit with a non-zero symbol inserts; and no step removes an entry or touches the one for symbol 0. -/
def Obligations.SymbolTableLastWriteWins : Prop :=
  (∀ (t : SymbolTable) (k : Nat), cellFind k t = none → symLookup t k = 0) ∧
  (∀ (t : SymbolTable) (k a : Nat), cellFind k t = some a → symLookup t k = a) ∧
  (∀ (t : SymbolTable) (k a : Nat), cellFind k (symInsert t k a) = some a ∧
    ∀ j, j ≠ k → cellFind j (symInsert t k a) = cellFind j t) ∧
  ∀ s t : State, step s = .next t →
    (t.symtab ≠ s.symtab → s.microcode.read s.mcAddr = encode s.cfg .murMc ∧ s.mur.symbol ≠ 0) ∧
    cellFind 0 t.symtab = cellFind 0 s.symtab ∧
    ∀ k, (cellFind k s.symtab).isSome = true → (cellFind k t.symtab).isSome = true

/-- R58: a write followed by a read of the same cell returns the written value. -/
def Obligations.ReadAfterWriteReturnsTheWord : Prop :=
  ∀ s t : State, exec .dbRam s = .next t →
    ∃ u, exec .ramDb t = .next u ∧ u.dataBus = s.dataBus ∧ u.ram = t.ram ∧ u.addressBus = s.addressBus

/-- R63: a code committed to the next cell is what the next step runs, and a symbol bound by a commit is where the next
`ins_mc` on it goes. -/
def Obligations.CommitsAreSeenByTheNextStep : Prop :=
  (∀ (s t : State) (i : Instr), step s = .next t → s.microcode.read s.mcAddr = encode s.cfg .murMc →
    s.mur.microOp ≠ s.cfg.loMax → s.mur.address = s.mcAddr + 1 → decode s.cfg s.mur.microOp = .ok i →
    step t = exec i t) ∧
  ∀ s t : State, exec .murMc s = .next t → s.mur.symbol ≠ 0 → hi s.cfg s.ins = s.mur.symbol →
    exec .insMc t = .next { t with mcAddr := s.mur.address, answer := .continues }

/-- R163: staging an address and then a code with a symbol, and committing, installs the code and binds the symbol. -/
def Obligations.StagedUpdateInstallsAnOpcode : Prop :=
  ∀ (s : State) (w₁ w₂ : Nat), lo s.cfg w₁ ≤ s.cfg.mcAddrMax → lo s.cfg w₂ ≠ s.cfg.loMax → hi s.cfg w₂ ≠ 0 →
    ∃ s₁ s₂ t, exec .insMur1 { s with ins := w₁ } = .next s₁ ∧ exec .insMur2 { s₁ with ins := w₂ } = .next s₂ ∧
      exec .murMc s₂ = .next t ∧ t.microcode.read (lo s.cfg w₁) = lo s.cfg w₂ ∧
      (∀ a, a ≠ lo s.cfg w₁ → t.microcode.read a = s.microcode.read a) ∧
      cellFind (hi s.cfg w₂) t.symtab = some (lo s.cfg w₁) ∧ t.mur = ⟨0, 0, 0⟩

/-- R122, the indirect addressing steps (and spec/90_conflicts.md C3): `ins_ab, ram_db, db_ins, ins_ab, ram_db` loads
from the address in the lower group of the pointer, and overwrites `ins`. -/
def Obligations.IndirectLoadGoesThroughThePointer : Prop :=
  ∀ s : State, s.deviceMappings = [] → lo s.cfg s.ins ≤ s.cfg.loMax →
    lo s.cfg (s.ram.read (lo s.cfg s.ins)) ≤ s.cfg.loMax →
    ∃ s₁ s₂ s₃ s₄ t, exec .insAb s = .next s₁ ∧ exec .ramDb s₁ = .next s₂ ∧ exec .dbIns s₂ = .next s₃ ∧
      exec .insAb s₃ = .next s₄ ∧ exec .ramDb s₄ = .next t ∧
      t.dataBus = s.ram.read (lo s.cfg (s.ram.read (lo s.cfg s.ins))) ∧
      t.ins = s.ram.read (lo s.cfg s.ins) ∧ t.ram = s.ram ∧ t.acc = s.acc ∧
      t.programCounter = s.programCounter ∧ t.mcAddr = s.mcAddr + 5

/-- R232: a commit of the zeroed update register writes `nop`'s code, 0, to microcode cell 0. -/
def Obligations.UnstagedCommitClearsCellZero : Prop :=
  ∀ s : State, s.cfg.Valid → s.mur = ⟨0, 0, 0⟩ →
    ∃ t, exec .murMc s = .next t ∧ t.microcode.read 0 = 0 ∧
      (∀ a, a ≠ 0 → t.microcode.read a = s.microcode.read a) ∧ t.symtab = s.symtab

/-- R157 and the first sentence of R233: a step that changes a microcode cell is a commit, the cell lies below
`modulus`, and the code written is not the sentinel. -/
def Obligations.CommitReachAndSentinel : Prop :=
  ∀ s t : State, s.Inv → step s = .next t → ∀ a, t.microcode.read a ≠ s.microcode.read a →
    s.microcode.read s.mcAddr = encode s.cfg .murMc ∧ a < modulus s.cfg ∧ a ≤ s.cfg.mcAddrMax ∧
      t.microcode.read a ≠ s.cfg.loMax

/-- R112: where the cursor goes depends on the microcode store, the cursor, the symbol table and `ins` alone. -/
def Obligations.MicroControlDependsOnlyOnIns : Prop :=
  ∀ s u s' u' : State,
    s.cfg = u.cfg → s.mcAddr = u.mcAddr → s.microcode = u.microcode → s.symtab = u.symtab → s.ins = u.ins →
    step s = .next s' → step u = .next u' → s'.mcAddr = u'.mcAddr ∧ s'.answer = u'.answer

/-- R24: `program_counter` reaches nothing but itself and the address bus in one step. -/
def Obligations.ProgramCounterReachesOnlyTheAddressBus : Prop :=
  ∀ (s t : State) (p : Nat), step s = .next t →
    ∃ u, step { s with programCounter := p } = .next u ∧
      u = { t with programCounter := u.programCounter, addressBus := u.addressBus }

/-- R23: the upper digit group of `ins` reaches only the symbol table lookup and `mur.symbol`: two values of `ins` with
one lower group lead to the same step but for `ins`, `mur.symbol` and, for `ins_mc`, the cursor. -/
def Obligations.UpperGroupReachesOnlySymbols : Prop :=
  ∀ (i : Instr) (s t : State) (v : Nat), lo s.cfg v = lo s.cfg s.ins → exec i s = .next t →
    ∃ u, exec i { s with ins := v } = .next u ∧
      u = { t with ins := u.ins, mcAddr := u.mcAddr, mur := { t.mur with symbol := u.mur.symbol } } ∧
      (i ≠ .insMc → u.mcAddr = t.mcAddr)

/-! ## Runs -/

/-- R111: a run that halts ends just past a `stop`, a run that aborts ends in the state whose step raised that Fatal,
and more steps allowed change nothing of a run that has ended. -/
def Obligations.HowARunEnds : Prop :=
  (∀ (n : Nat) (s t : State), runToHalt n s = .halted t →
    ∃ u, step u = .next t ∧ u.microcode.read u.mcAddr = encode u.cfg .stop ∧ t.mcAddr = u.mcAddr + 1) ∧
  (∀ (n : Nat) (s t : State) (f : Fault), runToHalt n s = .aborted f t → step t = .fault f) ∧
  ∀ (n k : Nat) (s : State), (∀ t, runToHalt n s ≠ .unfinished t) → runToHalt (n + k) s = runToHalt n s

/-- R108, R239: `mc_0` at address 0 loops for ever, changing nothing. -/
def Obligations.McZeroAtZeroHangs : Prop :=
  ∀ (n : Nat) (s : State), s.cfg.Valid → s.mcAddr = 0 → s.microcode.read 0 = encode s.cfg .mc0 →
    ∃ t, runToHalt n s = .unfinished t ∧ t = { s with answer := t.answer }

/-- The host's probe (log 5): the code it places is what the very next step runs. -/
def Obligations.PlacedCodeRunsNext : Prop :=
  ∀ (s : State) (nbits w : Nat) (i : Instr), s.cfg.Valid → decode s.cfg w = .ok i →
    step (s.withFetchWord nbits w) = exec i (s.withFetchWord nbits w)

/-! ## The environment's data (R172 to R183; no step reaches it) -/

/-- R181 (the document's property 8): a payload of at most 255 bytes is read back exactly, with whatever follows it left
in the channel; a longer one is rejected. -/
def Obligations.FramesReadBack : Prop :=
  ∀ payload : List Byte,
    (payload.length ≤ 255 → ∃ frame, writeFrame payload = some frame ∧ frame.length = payload.length + 1 ∧
      ∀ rest, readFrame (frame ++ rest) = some (payload, rest)) ∧
    (255 < payload.length → writeFrame payload = none)

/-- R178, and the access R183 leaves open: the window an attachment would register has the device window's length, its
offset translates its ends to the device's, and RAM reads and writes inside it are refused.  That the offset and the upper
end are integers, so that a device window below the requested address has a negative offset, is log 9's (DESIGN CHOICE);
that the handshake is its two fields as numbers is log 18's (DESIGN CHOICE); the refusals are log 8's (DESIGN CHOICE). -/
def Obligations.AttachedWindowTranslatesAndRefuses : Prop :=
  ∀ (s : State) (req dmin dmax : Nat) (rd wr : String),
    (attachedMapping req dmin dmax rd wr).maxAddr = (req : Int) + ((dmax : Int) - (dmin : Int)) ∧
    (attachedMapping req dmin dmax rd wr).deviceAddress req = (dmin : Int) ∧
    (dmin ≤ dmax → (attachedMapping req dmin dmax rd wr).deviceAddress (req + (dmax - dmin)) = (dmax : Int)) ∧
    ∀ a, req ≤ a → a ≤ req + (dmax - dmin) → dmin ≤ dmax → a ≤ s.cfg.loMax →
      memRead (finishAttach s req [dmin, dmax] rd wr) a = .refused (.deviceWindowNotModelled a) ∧
      ∀ v, memWrite (finishAttach s req [dmin, dmax] rd wr) a v = .refused (.deviceWindowNotModelled a)
end

