-- ==== Sys2Proof/Laws/Cells.lean ====
section
/-! SUPPORT. Everything the cell operations can do: what is read after a write, and that every operation keeps the
canonical form. -/

namespace Sys2Proof.Machine

/-! ## Lists of cells -/

theorem cellFind_cellSet_same (k v : Nat) (l : List (Nat × Nat)) : cellFind k (cellSet k v l) = some v := by
  induction l with
  | nil => simp [cellSet, cellFind]
  | cons c rest ih =>
    obtain ⟨b, w⟩ := c
    unfold cellSet
    split
    · simp [cellFind]
    · split
      · simp [cellFind]
      · next hne => simp [cellFind, Ne.symm hne, ih]

theorem cellFind_cellSet_other {k j : Nat} (h : j ≠ k) (v : Nat) (l : List (Nat × Nat)) :
    cellFind j (cellSet k v l) = cellFind j l := by
  induction l with
  | nil => simp [cellSet, cellFind, Ne.symm h]
  | cons c rest ih =>
    obtain ⟨b, w⟩ := c
    unfold cellSet
    split
    · simp [cellFind, Ne.symm h]
    · split
      · next he => subst he; simp [cellFind, Ne.symm h]
      · simp [cellFind, ih]

theorem cellFind_filter_same (k : Nat) (l : List (Nat × Nat)) : cellFind k (l.filter (fun c => c.1 ≠ k)) = none := by
  induction l with
  | nil => rfl
  | cons c rest ih =>
    obtain ⟨b, w⟩ := c
    by_cases h : b = k
    · simpa [h] using ih
    · simpa [h, cellFind] using ih

theorem cellFind_filter_other {k j : Nat} (h : j ≠ k) (l : List (Nat × Nat)) :
    cellFind j (l.filter (fun c => c.1 ≠ k)) = cellFind j l := by
  induction l with
  | nil => rfl
  | cons c rest ih =>
    obtain ⟨b, w⟩ := c
    by_cases hb : b = k
    · subst hb; simpa [cellFind, Ne.symm h] using ih
    · simp only [ne_eq, decide_not] at ih
      simp [hb, cellFind, ih]

theorem mem_of_cellFind {k v : Nat} {l : List (Nat × Nat)} (h : cellFind k l = some v) : (k, v) ∈ l := by
  induction l with
  | nil => simp [cellFind] at h
  | cons c rest ih =>
    obtain ⟨b, w⟩ := c
    by_cases hb : b = k
    · subst hb; simp_all [cellFind]
    · simp only [cellFind, hb, if_false] at h
      exact List.mem_cons_of_mem _ (ih h)

theorem mem_cellSet {k v : Nat} {c : Nat × Nat} {l : List (Nat × Nat)} (h : c ∈ cellSet k v l) :
    c = (k, v) ∨ c ∈ l := by
  induction l with
  | nil => simpa [cellSet] using h
  | cons d rest ih =>
    obtain ⟨b, w⟩ := d
    unfold cellSet at h
    split at h
    · simpa using h
    · split at h
      · rcases List.mem_cons.mp h with h | h
        · exact .inl h
        · exact .inr (List.mem_cons_of_mem _ h)
      · rcases List.mem_cons.mp h with h | h
        · exact .inr (by simp [h])
        · exact (ih h).imp id (List.mem_cons_of_mem _)

theorem cellSet_rising {k v : Nat} {l : List (Nat × Nat)} (h : (l.map Prod.fst).Pairwise (· < ·)) :
    ((cellSet k v l).map Prod.fst).Pairwise (· < ·) := by
  induction l with
  | nil => simp [cellSet]
  | cons c rest ih =>
    obtain ⟨b, w⟩ := c
    simp only [List.map_cons, List.pairwise_cons] at h
    unfold cellSet
    split
    · next hlt =>
      refine List.pairwise_cons.mpr ⟨?_, List.pairwise_cons.mpr h⟩
      intro x hx
      rcases List.mem_cons.mp hx with rfl | hx
      · exact hlt
      · exact Nat.lt_trans hlt (h.1 x hx)
    · split
      · next he => subst he; exact List.pairwise_cons.mpr h
      · next hlt hne =>
        refine List.pairwise_cons.mpr ⟨?_, ih h.2⟩
        intro x hx
        obtain ⟨c, hc, rfl⟩ := List.mem_map.mp hx
        rcases mem_cellSet hc with rfl | hc
        · show b < k
          omega
        · exact h.1 _ (List.mem_map_of_mem hc)

/-! ## Stores -/

@[simp] theorem Memory.read_nil (a : Nat) : Memory.read [] a = unlistedCell := rfl

@[simp] theorem Memory.read_write_same (m : Memory) (a : Nat) (v : Nat) : (m.write a v).read a = v := by
  unfold Memory.write Memory.read
  split
  · next h => rw [cellFind_filter_same]; exact h.symm
  · rw [cellFind_cellSet_same]; rfl

@[simp] theorem Memory.read_write_other {a b : Nat} (h : b ≠ a) (m : Memory) (v : Nat) :
    (m.write a v).read b = m.read b := by
  unfold Memory.write Memory.read
  split
  · rw [cellFind_filter_other h]
  · rw [cellFind_cellSet_other h]

theorem Memory.read_write (m : Memory) (a b : Nat) (v : Nat) :
    (m.write a v).read b = if b = a then v else m.read b := by
  split
  · next h => subst h; exact Memory.read_write_same m b v
  · next h => exact Memory.read_write_other h m v

/-- A cell a write lists is the cell written, or was listed before. -/
theorem Memory.mem_write {m : Memory} {a : Nat} {v : Nat} {c : Nat × Nat} (h : c ∈ m.write a v) :
    c = (a, v) ∨ c ∈ m := by
  unfold Memory.write at h
  split at h
  · exact .inr (List.mem_filter.mp h).1
  · exact mem_cellSet h

/-- A cell that does not hold `unlistedCell` is listed. -/
theorem Memory.mem_of_read {m : Memory} {a : Nat} (h : m.read a ≠ unlistedCell) : (a, m.read a) ∈ m := by
  unfold Memory.read at h ⊢
  cases hf : cellFind a m with
  | none => simp [hf] at h
  | some v => exact mem_of_cellFind hf

/-- Every write keeps the canonical form. -/
theorem Memory.write_wf {m : Memory} (h : m.wf) (a : Nat) (v : Nat) : (m.write a v).wf := by
  unfold Memory.write
  split
  · refine ⟨?_, fun c hc => h.2 c (List.mem_filter.mp hc).1⟩
    exact h.1.sublist (List.filter_sublist.map _)
  · next hv =>
    refine ⟨cellSet_rising h.1, fun c hc => ?_⟩
    rcases mem_cellSet hc with rfl | hc
    · exact hv
    · exact h.2 c hc

/-! ## The symbol table -/

theorem symInsert_wf {t : SymbolTable} (h : t.wf) (k a : Nat) : (symInsert t k a).wf := cellSet_rising h

@[simp] theorem symLookup_symInsert_same (t : SymbolTable) (k a : Nat) : symLookup (symInsert t k a) k = a := by
  simp [symLookup, symInsert, cellFind_cellSet_same]

@[simp] theorem symLookup_symInsert_other {k j : Nat} (h : j ≠ k) (t : SymbolTable) (a : Nat) :
    symLookup (symInsert t k a) j = symLookup t j := by
  simp [symLookup, symInsert, cellFind_cellSet_other h]

end Sys2Proof.Machine
end

