-- ==== Sys2Proof/Laws/Decode.lean ====
section
/-! SUPPORT. The small lemmas of the code table. -/

namespace Sys2Proof

theorem Instr.mem_all (i : Instr) : i ∈ Instr.all := by cases i <;> decide

/-- In a valid configuration two micro-operations with one code are the same. -/
theorem Config.Valid.code_injective {cfg : Config} (h : cfg.Valid) {i j : Instr}
    (he : cfg.codeOf.code i = cfg.codeOf.code j) : i = j := by
  have hw := h.2 j (Instr.mem_all j)
  simp only [Instr.wf, List.all_eq_true, Bool.or_eq_true, decide_eq_true_eq] at hw
  exact (hw i (Instr.mem_all i)).resolve_right (fun hn => hn he)

/-- What decoding answers an instruction for. -/
theorem code_of_decode {cfg : Config} {c : Nat} {i : Instr} (h : decode cfg c = .ok i) : cfg.codeOf.code i = c := by
  unfold decode at h
  split at h
  · next j hj =>
    cases h
    simpa using List.find?_some hj
  · cases h

/-- A code that decodes to nothing is rejected under its own name. -/
theorem decode_error_code {cfg : Config} {c c' : Nat} (h : decode cfg c = .error (.unrecognised c')) : c' = c := by
  unfold decode at h
  split at h
  · cases h
  · cases h; rfl

end Sys2Proof
end

