-- ==== Sys2Proof/Laws/State.lean ====
section
/-! SUPPORT. One lemma per field per update of State, true by `rfl`, so that no later proof unfolds a record
update. -/

namespace Sys2Proof.Machine

variable (s : State)

@[simp] theorem State.setAddressBus_cfg (v : Nat) : (s.setAddressBus v).cfg = s.cfg := rfl
@[simp] theorem State.setAddressBus_addressBus (v : Nat) : (s.setAddressBus v).addressBus = v := rfl
@[simp] theorem State.setAddressBus_dataBus (v : Nat) : (s.setAddressBus v).dataBus = s.dataBus := rfl
@[simp] theorem State.setAddressBus_ins (v : Nat) : (s.setAddressBus v).ins = s.ins := rfl
@[simp] theorem State.setAddressBus_programCounter (v : Nat) : (s.setAddressBus v).programCounter = s.programCounter := rfl
@[simp] theorem State.setAddressBus_acc (v : Nat) : (s.setAddressBus v).acc = s.acc := rfl
@[simp] theorem State.setAddressBus_mcAddr (v : Nat) : (s.setAddressBus v).mcAddr = s.mcAddr := rfl
@[simp] theorem State.setAddressBus_ram (v : Nat) : (s.setAddressBus v).ram = s.ram := rfl
@[simp] theorem State.setAddressBus_microcode (v : Nat) : (s.setAddressBus v).microcode = s.microcode := rfl
@[simp] theorem State.setAddressBus_symtab (v : Nat) : (s.setAddressBus v).symtab = s.symtab := rfl
@[simp] theorem State.setAddressBus_mur (v : Nat) : (s.setAddressBus v).mur = s.mur := rfl
@[simp] theorem State.setAddressBus_deviceMappings (v : Nat) : (s.setAddressBus v).deviceMappings = s.deviceMappings := rfl
@[simp] theorem State.setAddressBus_answer (v : Nat) : (s.setAddressBus v).answer = s.answer := rfl

@[simp] theorem State.setDataBus_cfg (v : Nat) : (s.setDataBus v).cfg = s.cfg := rfl
@[simp] theorem State.setDataBus_addressBus (v : Nat) : (s.setDataBus v).addressBus = s.addressBus := rfl
@[simp] theorem State.setDataBus_dataBus (v : Nat) : (s.setDataBus v).dataBus = v := rfl
@[simp] theorem State.setDataBus_ins (v : Nat) : (s.setDataBus v).ins = s.ins := rfl
@[simp] theorem State.setDataBus_programCounter (v : Nat) : (s.setDataBus v).programCounter = s.programCounter := rfl
@[simp] theorem State.setDataBus_acc (v : Nat) : (s.setDataBus v).acc = s.acc := rfl
@[simp] theorem State.setDataBus_mcAddr (v : Nat) : (s.setDataBus v).mcAddr = s.mcAddr := rfl
@[simp] theorem State.setDataBus_ram (v : Nat) : (s.setDataBus v).ram = s.ram := rfl
@[simp] theorem State.setDataBus_microcode (v : Nat) : (s.setDataBus v).microcode = s.microcode := rfl
@[simp] theorem State.setDataBus_symtab (v : Nat) : (s.setDataBus v).symtab = s.symtab := rfl
@[simp] theorem State.setDataBus_mur (v : Nat) : (s.setDataBus v).mur = s.mur := rfl
@[simp] theorem State.setDataBus_deviceMappings (v : Nat) : (s.setDataBus v).deviceMappings = s.deviceMappings := rfl
@[simp] theorem State.setDataBus_answer (v : Nat) : (s.setDataBus v).answer = s.answer := rfl

@[simp] theorem State.setIns_cfg (v : Nat) : (s.setIns v).cfg = s.cfg := rfl
@[simp] theorem State.setIns_addressBus (v : Nat) : (s.setIns v).addressBus = s.addressBus := rfl
@[simp] theorem State.setIns_dataBus (v : Nat) : (s.setIns v).dataBus = s.dataBus := rfl
@[simp] theorem State.setIns_ins (v : Nat) : (s.setIns v).ins = v := rfl
@[simp] theorem State.setIns_programCounter (v : Nat) : (s.setIns v).programCounter = s.programCounter := rfl
@[simp] theorem State.setIns_acc (v : Nat) : (s.setIns v).acc = s.acc := rfl
@[simp] theorem State.setIns_mcAddr (v : Nat) : (s.setIns v).mcAddr = s.mcAddr := rfl
@[simp] theorem State.setIns_ram (v : Nat) : (s.setIns v).ram = s.ram := rfl
@[simp] theorem State.setIns_microcode (v : Nat) : (s.setIns v).microcode = s.microcode := rfl
@[simp] theorem State.setIns_symtab (v : Nat) : (s.setIns v).symtab = s.symtab := rfl
@[simp] theorem State.setIns_mur (v : Nat) : (s.setIns v).mur = s.mur := rfl
@[simp] theorem State.setIns_deviceMappings (v : Nat) : (s.setIns v).deviceMappings = s.deviceMappings := rfl
@[simp] theorem State.setIns_answer (v : Nat) : (s.setIns v).answer = s.answer := rfl

@[simp] theorem State.setProgramCounter_cfg (v : Nat) : (s.setProgramCounter v).cfg = s.cfg := rfl
@[simp] theorem State.setProgramCounter_addressBus (v : Nat) : (s.setProgramCounter v).addressBus = s.addressBus := rfl
@[simp] theorem State.setProgramCounter_dataBus (v : Nat) : (s.setProgramCounter v).dataBus = s.dataBus := rfl
@[simp] theorem State.setProgramCounter_ins (v : Nat) : (s.setProgramCounter v).ins = s.ins := rfl
@[simp] theorem State.setProgramCounter_programCounter (v : Nat) : (s.setProgramCounter v).programCounter = v := rfl
@[simp] theorem State.setProgramCounter_acc (v : Nat) : (s.setProgramCounter v).acc = s.acc := rfl
@[simp] theorem State.setProgramCounter_mcAddr (v : Nat) : (s.setProgramCounter v).mcAddr = s.mcAddr := rfl
@[simp] theorem State.setProgramCounter_ram (v : Nat) : (s.setProgramCounter v).ram = s.ram := rfl
@[simp] theorem State.setProgramCounter_microcode (v : Nat) : (s.setProgramCounter v).microcode = s.microcode := rfl
@[simp] theorem State.setProgramCounter_symtab (v : Nat) : (s.setProgramCounter v).symtab = s.symtab := rfl
@[simp] theorem State.setProgramCounter_mur (v : Nat) : (s.setProgramCounter v).mur = s.mur := rfl
@[simp] theorem State.setProgramCounter_deviceMappings (v : Nat) : (s.setProgramCounter v).deviceMappings = s.deviceMappings := rfl
@[simp] theorem State.setProgramCounter_answer (v : Nat) : (s.setProgramCounter v).answer = s.answer := rfl

@[simp] theorem State.setAcc_cfg (v : Nat) : (s.setAcc v).cfg = s.cfg := rfl
@[simp] theorem State.setAcc_addressBus (v : Nat) : (s.setAcc v).addressBus = s.addressBus := rfl
@[simp] theorem State.setAcc_dataBus (v : Nat) : (s.setAcc v).dataBus = s.dataBus := rfl
@[simp] theorem State.setAcc_ins (v : Nat) : (s.setAcc v).ins = s.ins := rfl
@[simp] theorem State.setAcc_programCounter (v : Nat) : (s.setAcc v).programCounter = s.programCounter := rfl
@[simp] theorem State.setAcc_acc (v : Nat) : (s.setAcc v).acc = v := rfl
@[simp] theorem State.setAcc_mcAddr (v : Nat) : (s.setAcc v).mcAddr = s.mcAddr := rfl
@[simp] theorem State.setAcc_ram (v : Nat) : (s.setAcc v).ram = s.ram := rfl
@[simp] theorem State.setAcc_microcode (v : Nat) : (s.setAcc v).microcode = s.microcode := rfl
@[simp] theorem State.setAcc_symtab (v : Nat) : (s.setAcc v).symtab = s.symtab := rfl
@[simp] theorem State.setAcc_mur (v : Nat) : (s.setAcc v).mur = s.mur := rfl
@[simp] theorem State.setAcc_deviceMappings (v : Nat) : (s.setAcc v).deviceMappings = s.deviceMappings := rfl
@[simp] theorem State.setAcc_answer (v : Nat) : (s.setAcc v).answer = s.answer := rfl

@[simp] theorem State.setRam_cfg (m : Memory) : (s.setRam m).cfg = s.cfg := rfl
@[simp] theorem State.setRam_addressBus (m : Memory) : (s.setRam m).addressBus = s.addressBus := rfl
@[simp] theorem State.setRam_dataBus (m : Memory) : (s.setRam m).dataBus = s.dataBus := rfl
@[simp] theorem State.setRam_ins (m : Memory) : (s.setRam m).ins = s.ins := rfl
@[simp] theorem State.setRam_programCounter (m : Memory) : (s.setRam m).programCounter = s.programCounter := rfl
@[simp] theorem State.setRam_acc (m : Memory) : (s.setRam m).acc = s.acc := rfl
@[simp] theorem State.setRam_mcAddr (m : Memory) : (s.setRam m).mcAddr = s.mcAddr := rfl
@[simp] theorem State.setRam_ram (m : Memory) : (s.setRam m).ram = m := rfl
@[simp] theorem State.setRam_microcode (m : Memory) : (s.setRam m).microcode = s.microcode := rfl
@[simp] theorem State.setRam_symtab (m : Memory) : (s.setRam m).symtab = s.symtab := rfl
@[simp] theorem State.setRam_mur (m : Memory) : (s.setRam m).mur = s.mur := rfl
@[simp] theorem State.setRam_deviceMappings (m : Memory) : (s.setRam m).deviceMappings = s.deviceMappings := rfl
@[simp] theorem State.setRam_answer (m : Memory) : (s.setRam m).answer = s.answer := rfl

@[simp] theorem State.setMicrocode_cfg (m : Memory) : (s.setMicrocode m).cfg = s.cfg := rfl
@[simp] theorem State.setMicrocode_addressBus (m : Memory) : (s.setMicrocode m).addressBus = s.addressBus := rfl
@[simp] theorem State.setMicrocode_dataBus (m : Memory) : (s.setMicrocode m).dataBus = s.dataBus := rfl
@[simp] theorem State.setMicrocode_ins (m : Memory) : (s.setMicrocode m).ins = s.ins := rfl
@[simp] theorem State.setMicrocode_programCounter (m : Memory) : (s.setMicrocode m).programCounter = s.programCounter := rfl
@[simp] theorem State.setMicrocode_acc (m : Memory) : (s.setMicrocode m).acc = s.acc := rfl
@[simp] theorem State.setMicrocode_mcAddr (m : Memory) : (s.setMicrocode m).mcAddr = s.mcAddr := rfl
@[simp] theorem State.setMicrocode_ram (m : Memory) : (s.setMicrocode m).ram = s.ram := rfl
@[simp] theorem State.setMicrocode_microcode (m : Memory) : (s.setMicrocode m).microcode = m := rfl
@[simp] theorem State.setMicrocode_symtab (m : Memory) : (s.setMicrocode m).symtab = s.symtab := rfl
@[simp] theorem State.setMicrocode_mur (m : Memory) : (s.setMicrocode m).mur = s.mur := rfl
@[simp] theorem State.setMicrocode_deviceMappings (m : Memory) : (s.setMicrocode m).deviceMappings = s.deviceMappings := rfl
@[simp] theorem State.setMicrocode_answer (m : Memory) : (s.setMicrocode m).answer = s.answer := rfl

@[simp] theorem State.setSymtab_cfg (t : SymbolTable) : (s.setSymtab t).cfg = s.cfg := rfl
@[simp] theorem State.setSymtab_addressBus (t : SymbolTable) : (s.setSymtab t).addressBus = s.addressBus := rfl
@[simp] theorem State.setSymtab_dataBus (t : SymbolTable) : (s.setSymtab t).dataBus = s.dataBus := rfl
@[simp] theorem State.setSymtab_ins (t : SymbolTable) : (s.setSymtab t).ins = s.ins := rfl
@[simp] theorem State.setSymtab_programCounter (t : SymbolTable) : (s.setSymtab t).programCounter = s.programCounter := rfl
@[simp] theorem State.setSymtab_acc (t : SymbolTable) : (s.setSymtab t).acc = s.acc := rfl
@[simp] theorem State.setSymtab_mcAddr (t : SymbolTable) : (s.setSymtab t).mcAddr = s.mcAddr := rfl
@[simp] theorem State.setSymtab_ram (t : SymbolTable) : (s.setSymtab t).ram = s.ram := rfl
@[simp] theorem State.setSymtab_microcode (t : SymbolTable) : (s.setSymtab t).microcode = s.microcode := rfl
@[simp] theorem State.setSymtab_symtab (t : SymbolTable) : (s.setSymtab t).symtab = t := rfl
@[simp] theorem State.setSymtab_mur (t : SymbolTable) : (s.setSymtab t).mur = s.mur := rfl
@[simp] theorem State.setSymtab_deviceMappings (t : SymbolTable) : (s.setSymtab t).deviceMappings = s.deviceMappings := rfl
@[simp] theorem State.setSymtab_answer (t : SymbolTable) : (s.setSymtab t).answer = s.answer := rfl

@[simp] theorem State.setMur_cfg (r : UpdateRegister) : (s.setMur r).cfg = s.cfg := rfl
@[simp] theorem State.setMur_addressBus (r : UpdateRegister) : (s.setMur r).addressBus = s.addressBus := rfl
@[simp] theorem State.setMur_dataBus (r : UpdateRegister) : (s.setMur r).dataBus = s.dataBus := rfl
@[simp] theorem State.setMur_ins (r : UpdateRegister) : (s.setMur r).ins = s.ins := rfl
@[simp] theorem State.setMur_programCounter (r : UpdateRegister) : (s.setMur r).programCounter = s.programCounter := rfl
@[simp] theorem State.setMur_acc (r : UpdateRegister) : (s.setMur r).acc = s.acc := rfl
@[simp] theorem State.setMur_mcAddr (r : UpdateRegister) : (s.setMur r).mcAddr = s.mcAddr := rfl
@[simp] theorem State.setMur_ram (r : UpdateRegister) : (s.setMur r).ram = s.ram := rfl
@[simp] theorem State.setMur_microcode (r : UpdateRegister) : (s.setMur r).microcode = s.microcode := rfl
@[simp] theorem State.setMur_symtab (r : UpdateRegister) : (s.setMur r).symtab = s.symtab := rfl
@[simp] theorem State.setMur_mur (r : UpdateRegister) : (s.setMur r).mur = r := rfl
@[simp] theorem State.setMur_deviceMappings (r : UpdateRegister) : (s.setMur r).deviceMappings = s.deviceMappings := rfl
@[simp] theorem State.setMur_answer (r : UpdateRegister) : (s.setMur r).answer = s.answer := rfl

@[simp] theorem State.setDeviceMappings_cfg (ms : List DeviceMapping) : (s.setDeviceMappings ms).cfg = s.cfg := rfl
@[simp] theorem State.setDeviceMappings_addressBus (ms : List DeviceMapping) : (s.setDeviceMappings ms).addressBus = s.addressBus := rfl
@[simp] theorem State.setDeviceMappings_dataBus (ms : List DeviceMapping) : (s.setDeviceMappings ms).dataBus = s.dataBus := rfl
@[simp] theorem State.setDeviceMappings_ins (ms : List DeviceMapping) : (s.setDeviceMappings ms).ins = s.ins := rfl
@[simp] theorem State.setDeviceMappings_programCounter (ms : List DeviceMapping) : (s.setDeviceMappings ms).programCounter = s.programCounter := rfl
@[simp] theorem State.setDeviceMappings_acc (ms : List DeviceMapping) : (s.setDeviceMappings ms).acc = s.acc := rfl
@[simp] theorem State.setDeviceMappings_mcAddr (ms : List DeviceMapping) : (s.setDeviceMappings ms).mcAddr = s.mcAddr := rfl
@[simp] theorem State.setDeviceMappings_ram (ms : List DeviceMapping) : (s.setDeviceMappings ms).ram = s.ram := rfl
@[simp] theorem State.setDeviceMappings_microcode (ms : List DeviceMapping) : (s.setDeviceMappings ms).microcode = s.microcode := rfl
@[simp] theorem State.setDeviceMappings_symtab (ms : List DeviceMapping) : (s.setDeviceMappings ms).symtab = s.symtab := rfl
@[simp] theorem State.setDeviceMappings_mur (ms : List DeviceMapping) : (s.setDeviceMappings ms).mur = s.mur := rfl
@[simp] theorem State.setDeviceMappings_deviceMappings (ms : List DeviceMapping) : (s.setDeviceMappings ms).deviceMappings = ms := rfl
@[simp] theorem State.setDeviceMappings_answer (ms : List DeviceMapping) : (s.setDeviceMappings ms).answer = s.answer := rfl

@[simp] theorem State.setCursor_cfg (target : Nat) (a : Answer) : (s.setCursor target a).cfg = s.cfg := rfl
@[simp] theorem State.setCursor_addressBus (target : Nat) (a : Answer) : (s.setCursor target a).addressBus = s.addressBus := rfl
@[simp] theorem State.setCursor_dataBus (target : Nat) (a : Answer) : (s.setCursor target a).dataBus = s.dataBus := rfl
@[simp] theorem State.setCursor_ins (target : Nat) (a : Answer) : (s.setCursor target a).ins = s.ins := rfl
@[simp] theorem State.setCursor_programCounter (target : Nat) (a : Answer) : (s.setCursor target a).programCounter = s.programCounter := rfl
@[simp] theorem State.setCursor_acc (target : Nat) (a : Answer) : (s.setCursor target a).acc = s.acc := rfl
@[simp] theorem State.setCursor_mcAddr (target : Nat) (a : Answer) : (s.setCursor target a).mcAddr = target := rfl
@[simp] theorem State.setCursor_ram (target : Nat) (a : Answer) : (s.setCursor target a).ram = s.ram := rfl
@[simp] theorem State.setCursor_microcode (target : Nat) (a : Answer) : (s.setCursor target a).microcode = s.microcode := rfl
@[simp] theorem State.setCursor_symtab (target : Nat) (a : Answer) : (s.setCursor target a).symtab = s.symtab := rfl
@[simp] theorem State.setCursor_mur (target : Nat) (a : Answer) : (s.setCursor target a).mur = s.mur := rfl
@[simp] theorem State.setCursor_deviceMappings (target : Nat) (a : Answer) : (s.setCursor target a).deviceMappings = s.deviceMappings := rfl
@[simp] theorem State.setCursor_answer (target : Nat) (a : Answer) : (s.setCursor target a).answer = a := rfl

end Sys2Proof.Machine
end

