-- ==== Sys2Proof/Laws/Ops.lean ====
section
/-! SUPPORT. Everything each shared operation can answer, once. -/

namespace Sys2Proof.Machine

variable {α β : Type}

/-! ## Sequencing -/

@[simp] theorem andThen_next (a : α) (f : α → Result β) : andThen (.next a) f = f a := rfl
@[simp] theorem andThen_fault (r : Fault) (f : α → Result β) : andThen (.fault r) f = .fault r := rfl
@[simp] theorem andThen_refused (r : Refusal) (f : α → Result β) : andThen (.refused r) f = .refused r := rfl

theorem andThen_eq_next {x : Result α} {f : α → Result β} {b : β} :
    andThen x f = .next b ↔ ∃ a, x = .next a ∧ f a = .next b := by
  cases x <;> simp

theorem andThen_eq_fault {x : Result α} {f : α → Result β} {r : Fault} :
    andThen x f = .fault r ↔ x = .fault r ∨ ∃ a, x = .next a ∧ f a = .fault r := by
  cases x <;> simp

theorem andThen_eq_refused {x : Result α} {f : α → Result β} {r : Refusal} :
    andThen x f = .refused r ↔ x = .refused r ∨ ∃ a, x = .next a ∧ f a = .refused r := by
  cases x <;> simp

@[simp] theorem raiseFatal_eq (r : Fault) : (raiseFatal r : Result α) = .fault r := rfl
@[simp] theorem finish_eq (s : State) (t : Nat) (a : Answer) : finish s t a = .next (s.setCursor t a) := rfl
@[simp] theorem advance_eq (s : State) : advance s = .next (s.setCursor (s.mcAddr + 1) .continues) := rfl

/-! ## RAM -/

theorem ramCheck_next {s : State} {a : Nat} (h : a ≤ s.cfg.loMax) (hw : inDeviceWindow s a = false) :
    ramCheck s a = .next () := by
  simp [ramCheck, h, hw]

theorem ramCheck_fault {s : State} {a : Nat} (h : s.cfg.loMax < a) :
    ramCheck s a = .fault (.ramAddressOutOfRange a) := by
  simp [ramCheck, Nat.not_le.mpr h]

theorem ramCheck_refused {s : State} {a : Nat} (h : a ≤ s.cfg.loMax) (hw : inDeviceWindow s a = true) :
    ramCheck s a = .refused (.deviceWindowNotModelled a) := by
  simp [ramCheck, h, hw]

theorem ramCheck_cases (s : State) (a : Nat) :
    (s.cfg.loMax < a ∧ ramCheck s a = .fault (.ramAddressOutOfRange a)) ∨
    (a ≤ s.cfg.loMax ∧ inDeviceWindow s a = true ∧ ramCheck s a = .refused (.deviceWindowNotModelled a)) ∨
    (a ≤ s.cfg.loMax ∧ inDeviceWindow s a = false ∧ ramCheck s a = .next ()) := by
  by_cases h : a ≤ s.cfg.loMax
  · cases hw : inDeviceWindow s a
    · exact .inr (.inr ⟨h, rfl, ramCheck_next h hw⟩)
    · exact .inr (.inl ⟨h, rfl, ramCheck_refused h hw⟩)
  · exact .inl ⟨Nat.not_le.mp h, ramCheck_fault (Nat.not_le.mp h)⟩

theorem ramCheck_eq_next {s : State} {a : Nat} :
    ramCheck s a = .next () ↔ a ≤ s.cfg.loMax ∧ inDeviceWindow s a = false := by
  rcases ramCheck_cases s a with ⟨h, e⟩ | ⟨h, hw, e⟩ | ⟨h, hw, e⟩
  · simp [e, Nat.not_le.mpr h]
  · simp [e, hw]
  · simp [e, h, hw]

theorem ramCheck_eq_fault {s : State} {a : Nat} {r : Fault} :
    ramCheck s a = .fault r ↔ s.cfg.loMax < a ∧ r = .ramAddressOutOfRange a := by
  rcases ramCheck_cases s a with ⟨h, e⟩ | ⟨h, hw, e⟩ | ⟨h, hw, e⟩
  · simp [e, h, eq_comm]
  · simp [e, Nat.not_lt.mpr h]
  · simp [e, Nat.not_lt.mpr h]

theorem ramCheck_eq_refused {s : State} {a : Nat} {r : Refusal} :
    ramCheck s a = .refused r ↔
      a ≤ s.cfg.loMax ∧ inDeviceWindow s a = true ∧ r = .deviceWindowNotModelled a := by
  rcases ramCheck_cases s a with ⟨h, e⟩ | ⟨h, hw, e⟩ | ⟨h, hw, e⟩
  · simp [e, Nat.not_le.mpr h]
  · simp [e, h, hw, eq_comm]
  · simp [e, hw]

/-- Where no device is mapped no address is in a window. -/
theorem inDeviceWindow_of_noMappings {s : State} (h : s.deviceMappings = []) (a : Nat) :
    inDeviceWindow s a = false := by
  simp [inDeviceWindow, h]

theorem memRead_eq_next {s : State} {a : Nat} {w : Nat} :
    memRead s a = .next w ↔ a ≤ s.cfg.loMax ∧ inDeviceWindow s a = false ∧ w = s.ram.read a := by
  simp only [memRead, andThen_eq_next]
  constructor
  · rintro ⟨⟨⟩, hc, hw⟩
    obtain ⟨h₁, h₂⟩ := ramCheck_eq_next.mp hc
    exact ⟨h₁, h₂, (Host.Outcome.next.inj hw).symm⟩
  · rintro ⟨h₁, h₂, rfl⟩
    exact ⟨(), ramCheck_eq_next.mpr ⟨h₁, h₂⟩, rfl⟩

theorem memRead_eq_fault {s : State} {a : Nat} {r : Fault} :
    memRead s a = .fault r ↔ s.cfg.loMax < a ∧ r = .ramAddressOutOfRange a := by
  simp [memRead, andThen_eq_fault, ramCheck_eq_fault]

theorem memRead_eq_refused {s : State} {a : Nat} {r : Refusal} :
    memRead s a = .refused r ↔
      a ≤ s.cfg.loMax ∧ inDeviceWindow s a = true ∧ r = .deviceWindowNotModelled a := by
  simp [memRead, andThen_eq_refused, ramCheck_eq_refused]

theorem memWrite_eq_next {s t : State} {a : Nat} {v : Nat} :
    memWrite s a v = .next t ↔
      a ≤ s.cfg.loMax ∧ inDeviceWindow s a = false ∧ t = s.setRam (s.ram.write a v) := by
  simp only [memWrite, andThen_eq_next]
  constructor
  · rintro ⟨⟨⟩, hc, hw⟩
    obtain ⟨h₁, h₂⟩ := ramCheck_eq_next.mp hc
    exact ⟨h₁, h₂, (Host.Outcome.next.inj hw).symm⟩
  · rintro ⟨h₁, h₂, rfl⟩
    exact ⟨(), ramCheck_eq_next.mpr ⟨h₁, h₂⟩, rfl⟩

theorem memWrite_eq_fault {s : State} {a : Nat} {v : Nat} {r : Fault} :
    memWrite s a v = .fault r ↔ s.cfg.loMax < a ∧ r = .ramAddressOutOfRange a := by
  simp [memWrite, andThen_eq_fault, ramCheck_eq_fault]

theorem memWrite_eq_refused {s : State} {a : Nat} {v : Nat} {r : Refusal} :
    memWrite s a v = .refused r ↔
      a ≤ s.cfg.loMax ∧ inDeviceWindow s a = true ∧ r = .deviceWindowNotModelled a := by
  simp [memWrite, andThen_eq_refused, ramCheck_eq_refused]

/-! ## The microcode store -/

theorem mcRead_eq_next {s : State} {a c : Nat} :
    mcRead s a = .next c ↔ a ≤ s.cfg.mcAddrMax ∧ c = s.microcode.read a := by
  by_cases h : a ≤ s.cfg.mcAddrMax <;> simp [mcRead, h, eq_comm]

theorem mcRead_eq_fault {s : State} {a : Nat} {r : Fault} :
    mcRead s a = .fault r ↔ s.cfg.mcAddrMax < a ∧ r = .mcAddrOutOfRange a := by
  by_cases h : a ≤ s.cfg.mcAddrMax
  · simp [mcRead, h, Nat.not_lt.mpr h]
  · simp [mcRead, h, Nat.not_le.mp h, eq_comm]

theorem mcRead_ne_refused {s : State} {a : Nat} {r : Refusal} : mcRead s a ≠ .refused r := by
  unfold mcRead; split <;> simp

theorem mcWrite_eq_next {s t : State} {a v : Nat} :
    mcWrite s a v = .next t ↔ a ≤ s.cfg.mcAddrMax ∧ t = s.setMicrocode (s.microcode.write a v) := by
  by_cases h : a ≤ s.cfg.mcAddrMax <;> simp [mcWrite, h, eq_comm]

theorem mcWrite_eq_fault {s : State} {a v : Nat} {r : Fault} :
    mcWrite s a v = .fault r ↔ s.cfg.mcAddrMax < a ∧ r = .mcWriteOutOfRange a := by
  by_cases h : a ≤ s.cfg.mcAddrMax
  · simp [mcWrite, h, Nat.not_lt.mpr h]
  · simp [mcWrite, h, Nat.not_le.mp h, eq_comm]

theorem mcWrite_ne_refused {s : State} {a v : Nat} {r : Refusal} : mcWrite s a v ≠ .refused r := by
  unfold mcWrite; split <;> simp

/-! ## Fetch and decode -/

/-- Fetching answers an instruction exactly when the configuration is valid, the cursor is in the store and the cell
decodes. -/
theorem fetchInstr_eq_next {s : State} {i : Instr} :
    fetchInstr s = .next i ↔
      s.cfg.Valid ∧ s.mcAddr ≤ s.cfg.mcAddrMax ∧ decode s.cfg (s.microcode.read s.mcAddr) = .ok i := by
  unfold fetchInstr
  split
  · next hv =>
    simp only [andThen_eq_next, mcRead_eq_next]
    constructor
    · rintro ⟨c, ⟨hm, rfl⟩, hd⟩
      refine ⟨hv, hm, ?_⟩
      split at hd <;> simp_all
    · rintro ⟨-, hm, hd⟩
      exact ⟨_, ⟨hm, rfl⟩, by simp [hd]⟩
  · next hv => simp [hv]

theorem fetchInstr_eq_fault {s : State} {r : Fault} :
    fetchInstr s = .fault r ↔
      s.cfg.Valid ∧
        ((s.cfg.mcAddrMax < s.mcAddr ∧ r = .mcAddrOutOfRange s.mcAddr) ∨
         (s.mcAddr ≤ s.cfg.mcAddrMax ∧ ∃ c, decode s.cfg (s.microcode.read s.mcAddr) = .error (.unrecognised c) ∧
            r = .unrecognisedMicroOp c s.mcAddr)) := by
  unfold fetchInstr
  split
  · next hv =>
    simp only [andThen_eq_fault, mcRead_eq_fault, mcRead_eq_next]
    constructor
    · rintro (h | ⟨c, ⟨hm, rfl⟩, hd⟩)
      · exact ⟨hv, .inl h⟩
      · refine ⟨hv, .inr ⟨hm, ?_⟩⟩
        split at hd
        · simp at hd
        · next c' hc => exact ⟨c', hc, by simpa [eq_comm] using hd⟩
    · rintro ⟨-, h | ⟨hm, c, hd, rfl⟩⟩
      · exact .inl h
      · exact .inr ⟨_, ⟨hm, rfl⟩, by simp [hd]⟩
  · next hv => simp [hv]

theorem fetchInstr_eq_refused {s : State} {r : Refusal} :
    fetchInstr s = .refused r ↔ ¬ s.cfg.Valid ∧ r = .invalidConfiguration := by
  unfold fetchInstr
  split
  · next hv =>
    refine ⟨fun h => ?_, fun h => absurd hv h.1⟩
    rcases andThen_eq_refused.mp h with h | ⟨c, -, hd⟩
    · exact absurd h mcRead_ne_refused
    · split at hd <;> simp at hd
  · next hv => simp [hv, eq_comm]

end Sys2Proof.Machine
end

