-- ==== Sys2Proof/Laws/Exec.lean ====
section
/-! SUPPORT. What each micro-operation can answer, once: an equation for those that always complete, an inversion lemma
for those that can stop, and what a step is. -/

namespace Sys2Proof.Machine

variable {s t : State}

/-! ## Micro-operations that always complete -/

@[simp] theorem exec_nop : exec .nop s = .next (s.setCursor (s.mcAddr + 1) .continues) := rfl
@[simp] theorem exec_insMc : exec .insMc s = .next (s.setCursor (symLookup s.symtab (hi s.cfg s.ins)) .continues) := rfl
@[simp] theorem exec_mc0 : exec .mc0 s = .next (s.setCursor 0 .continues) := rfl
@[simp] theorem exec_stop : exec .stop s = .next (s.setCursor (s.mcAddr + 1) .halts) := rfl
@[simp] theorem exec_dbIns : exec .dbIns s = .next ((s.setIns s.dataBus).setCursor (s.mcAddr + 1) .continues) := rfl
@[simp] theorem exec_insAb :
    exec .insAb s = .next ((s.setAddressBus (lo s.cfg s.ins)).setCursor (s.mcAddr + 1) .continues) := rfl
@[simp] theorem exec_pcAb :
    exec .pcAb s = .next ((s.setAddressBus s.programCounter).setCursor (s.mcAddr + 1) .continues) := rfl
@[simp] theorem exec_accDb : exec .accDb s = .next ((s.setDataBus s.acc).setCursor (s.mcAddr + 1) .continues) := rfl
@[simp] theorem exec_insDb :
    exec .insDb s = .next ((s.setDataBus (lo s.cfg s.ins)).setCursor (s.mcAddr + 1) .continues) := rfl
@[simp] theorem exec_pcInc :
    exec .pcInc s = .next ((s.setProgramCounter (s.programCounter + 1)).setCursor (s.mcAddr + 1) .continues) := rfl
@[simp] theorem exec_insPc :
    exec .insPc s = .next ((s.setProgramCounter (lo s.cfg s.ins)).setCursor (s.mcAddr + 1) .continues) := rfl

theorem exec_if0PcInc : exec .if0PcInc s =
    .next ((s.setProgramCounter (if s.acc = 0 then s.programCounter + 1 else s.programCounter)).setCursor
      (s.mcAddr + 1) .continues) := by
  by_cases h : s.acc = 0 <;> simp [exec, execIf0PcInc, accIsZero, h, State.setProgramCounter, State.setCursor]

@[simp] theorem accumulate_eq (z : Int) :
    accumulate s z = .next ((s.setAcc (sat s.cfg z)).setCursor (s.mcAddr + 1) .continues) := rfl
@[simp] theorem exec_acc0 : exec .acc0 s = accumulate s 0 := rfl
@[simp] theorem exec_plus : exec .plus s = accumulate s ((s.acc : Int) + (s.dataBus : Int)) := rfl
@[simp] theorem exec_minus : exec .minus s = accumulate s ((s.acc : Int) - (s.dataBus : Int)) := rfl
@[simp] theorem exec_accInc : exec .accInc s = accumulate s ((s.acc : Int) + 1) := rfl
@[simp] theorem exec_accDec : exec .accDec s = accumulate s ((s.acc : Int) - 1) := rfl
@[simp] theorem exec_dbAcc : exec .dbAcc s = accumulate s (s.dataBus : Int) := rfl

@[simp] theorem exec_insMur1 :
    exec .insMur1 s =
      .next ((s.setMur { s.mur with address := lo s.cfg s.ins }).setCursor (s.mcAddr + 1) .continues) := rfl
@[simp] theorem exec_insMur2 :
    exec .insMur2 s =
      .next ((s.setMur { s.mur with microOp := lo s.cfg s.ins, symbol := hi s.cfg s.ins }).setCursor
        (s.mcAddr + 1) .continues) := rfl

/-! ## Micro-operations that can stop -/

theorem exec_dbRam_eq_next :
    exec .dbRam s = .next t ↔
      s.addressBus ≤ s.cfg.loMax ∧ inDeviceWindow s s.addressBus = false ∧
        t = (s.setRam (s.ram.write s.addressBus s.dataBus)).setCursor (s.mcAddr + 1) .continues := by
  simp only [exec, execDbRam, andThen_eq_next, memWrite_eq_next, advance_eq]
  constructor
  · rintro ⟨u, ⟨h₁, h₂, rfl⟩, h⟩
    exact ⟨h₁, h₂, (Host.Outcome.next.inj h).symm⟩
  · rintro ⟨h₁, h₂, rfl⟩
    exact ⟨_, ⟨h₁, h₂, rfl⟩, rfl⟩

theorem exec_ramDb_eq_next :
    exec .ramDb s = .next t ↔
      s.addressBus ≤ s.cfg.loMax ∧ inDeviceWindow s s.addressBus = false ∧
        t = (s.setDataBus (s.ram.read s.addressBus)).setCursor (s.mcAddr + 1) .continues := by
  simp only [exec, execRamDb, andThen_eq_next, memRead_eq_next, advance_eq]
  constructor
  · rintro ⟨w, ⟨h₁, h₂, rfl⟩, h⟩
    exact ⟨h₁, h₂, (Host.Outcome.next.inj h).symm⟩
  · rintro ⟨h₁, h₂, rfl⟩
    exact ⟨_, ⟨h₁, h₂, rfl⟩, rfl⟩

theorem exec_reserved_eq_next :
    exec .reserved s = .next t ↔
      s.cfg.reserved6Policy = .nop ∧ t = s.setCursor (s.mcAddr + 1) .continues := by
  simp only [exec, execReserved]
  cases s.cfg.reserved6Policy <;> simp [eq_comm]

theorem exec_iomap_eq_next :
    exec .iomap s = .next t ↔
      lo s.cfg s.ins ≤ s.cfg.loMax ∧ inDeviceWindow s (lo s.cfg s.ins) = false ∧
        s.cfg.deviceEntries.length ≤ s.ram.read (lo s.cfg s.ins) ∧
        t = s.setCursor (s.mcAddr + 1) .continues := by
  simp only [exec, execIomap, andThen_eq_next, memRead_eq_next]
  constructor
  · rintro ⟨w, ⟨h₁, h₂, rfl⟩, h⟩
    split at h
    · next hn => exact ⟨h₁, h₂, List.getElem?_eq_none_iff.mp hn, (Host.Outcome.next.inj h).symm⟩
    · cases h
  · rintro ⟨h₁, h₂, h₃, rfl⟩
    exact ⟨_, ⟨h₁, h₂, rfl⟩, by simp [List.getElem?_eq_none_iff.mpr h₃]⟩

/-! ## The commit -/

theorem commitCode_eq_next :
    commitCode s = .next t ↔
      (s.mur.microOp ≠ s.cfg.loMax → s.mur.address ≤ s.cfg.mcAddrMax) ∧
        t = s.setMicrocode
          (if s.mur.microOp = s.cfg.loMax then s.microcode
            else s.microcode.write s.mur.address s.mur.microOp) := by
  unfold commitCode
  by_cases h : s.mur.microOp = s.cfg.loMax
  · simp only [h, State.setMicrocode]
    simpa using eq_comm
  · simp [h, mcWrite_eq_next]

theorem commitSymbol_eq :
    commitSymbol s = s.setSymtab
      (if s.mur.symbol = 0 then s.symtab else symInsert s.symtab s.mur.symbol s.mur.address) := by
  unfold commitSymbol
  by_cases h : s.mur.symbol = 0 <;> simp [h, State.setSymtab]

/-- A commit completes exactly when no code write is due or its address is in the store. -/
theorem exec_murMc_eq_next :
    exec .murMc s = .next t ↔
      (s.mur.microOp ≠ s.cfg.loMax → s.mur.address ≤ s.cfg.mcAddrMax) ∧
        t = (((s.setMicrocode
            (if s.mur.microOp = s.cfg.loMax then s.microcode
              else s.microcode.write s.mur.address s.mur.microOp)).setSymtab
            (if s.mur.symbol = 0 then s.symtab else symInsert s.symtab s.mur.symbol s.mur.address)).setMur
            .zero).setCursor (s.mcAddr + 1) .continues := by
  simp only [exec, execMurMc, andThen_eq_next, commitCode_eq_next, commitSymbol_eq, advance_eq]
  constructor
  · rintro ⟨u, ⟨h, rfl⟩, e⟩
    exact ⟨h, (Host.Outcome.next.inj e).symm⟩
  · rintro ⟨h, rfl⟩
    exact ⟨_, ⟨h, rfl⟩, rfl⟩

/-! ## The step -/

/-- A step answers a next state exactly when the configuration is valid, the cursor is in the store, the cell decodes,
and the decoded micro-operation answers it. -/
theorem step_eq_next :
    step s = .next t ↔
      s.cfg.Valid ∧ s.mcAddr ≤ s.cfg.mcAddrMax ∧
        ∃ i, decode s.cfg (s.microcode.read s.mcAddr) = .ok i ∧ exec i s = .next t := by
  simp only [step, andThen_eq_next, fetchInstr_eq_next]
  constructor
  · rintro ⟨i, ⟨hv, hm, hd⟩, h⟩
    exact ⟨hv, hm, i, hd, h⟩
  · rintro ⟨hv, hm, i, hd, h⟩
    exact ⟨i, ⟨hv, hm, hd⟩, h⟩

theorem step_of_fetch {i : Instr} (h : fetchInstr s = .next i) : step s = exec i s := by
  simp [step, h]

theorem step_eq_fault {r : Fault} :
    step s = .fault r ↔ fetchInstr s = .fault r ∨ ∃ i, fetchInstr s = .next i ∧ exec i s = .fault r := by
  simp only [step, andThen_eq_fault]

theorem step_eq_refused {r : Refusal} :
    step s = .refused r ↔ fetchInstr s = .refused r ∨ ∃ i, fetchInstr s = .next i ∧ exec i s = .refused r := by
  simp only [step, andThen_eq_refused]

end Sys2Proof.Machine
end

