-- ==== Sys2Proof/Laws/PerInstr.lean ====
section
/-! SUPPORT. The family `Coded`, one lemma per constructor: under the document's example parameters each micro-operation
is listed, is well formed, and its code decodes to it. -/

namespace Sys2Proof.Laws.Coded

open Sys2Proof

/-- The micro-operation is listed, well formed under the reference configuration, and decoded from its own code. -/
abbrev Statement (i : Instr) : Prop :=
  i ∈ Instr.all ∧ i.wf .reference = true ∧ decodeTableWord 8 (encode .reference i) = some i

theorem nop : Statement .nop := by decide
theorem dbRam : Statement .dbRam := by decide
theorem ramDb : Statement .ramDb := by decide
theorem dbIns : Statement .dbIns := by decide
theorem insAb : Statement .insAb := by decide
theorem insMc : Statement .insMc := by decide
theorem reserved : Statement .reserved := by decide
theorem mc0 : Statement .mc0 := by decide
theorem pcAb : Statement .pcAb := by decide
theorem pcInc : Statement .pcInc := by decide
theorem if0PcInc : Statement .if0PcInc := by decide
theorem insPc : Statement .insPc := by decide
theorem acc0 : Statement .acc0 := by decide
theorem plus : Statement .plus := by decide
theorem minus : Statement .minus := by decide
theorem accDb : Statement .accDb := by decide
theorem accInc : Statement .accInc := by decide
theorem accDec : Statement .accDec := by decide
theorem dbAcc : Statement .dbAcc := by decide
theorem stop : Statement .stop := by decide
theorem insDb : Statement .insDb := by decide
theorem insMur1 : Statement .insMur1 := by decide
theorem insMur2 : Statement .insMur2 := by decide
theorem murMc : Statement .murMc := by decide
theorem iomap : Statement .iomap := by decide

end Sys2Proof.Laws.Coded
end

