-- ==== Sys2Proof/Laws/Run.lean ====
section
/-! SUPPORT. What one more step adds to a run, once, by the outcome of its first step. -/

namespace Sys2Proof.Machine

variable {s t : State}

@[simp] theorem stateAfter_next : stateAfter s (.next t) = t := rfl
@[simp] theorem stateAfter_fault (f : Fault) : stateAfter s (.fault f) = s := rfl
@[simp] theorem stateAfter_refused (r : Refusal) : stateAfter s (.refused r) = s := rfl

@[simp] theorem runToHalt_zero : runToHalt 0 s = .unfinished s := rfl

theorem runToHalt_continues (n : Nat) (h : step s = .next t) (ha : t.answer = .continues) :
    runToHalt (n + 1) s = runToHalt n t := by
  simp only [runToHalt, h, ha]

theorem runToHalt_halts (n : Nat) (h : step s = .next t) (ha : t.answer = .halts) :
    runToHalt (n + 1) s = .halted t := by
  simp only [runToHalt, h, ha]

theorem runToHalt_fault (n : Nat) {f : Fault} (h : step s = .fault f) : runToHalt (n + 1) s = .aborted f s := by
  simp only [runToHalt, h, stateAfter_fault]

theorem runToHalt_refused (n : Nat) {r : Refusal} (h : step s = .refused r) :
    runToHalt (n + 1) s = .refused r s := by
  simp only [runToHalt, h, stateAfter_refused]

end Sys2Proof.Machine
end

