-- ==== Sys2Proof/Tests/Slice0.lean ====
section
/-! SUPPORT. The model's own tests.  Expected results are the spec's (spec/95_test_vectors.md, named at each test; the
code words are spec/30_encoding.md R72's).  Then one witness for each statement that has hypotheses. -/

namespace Sys2Proof.Tests

open Sys2Proof Sys2Proof.Machine

/-! ## Helpers -/

/-- The next state of an outcome, if it is one. -/
def nextOf : Result State → Option State
  | .next t => some t
  | _ => none

/-- The fault of an outcome, if it is one. -/
def faultOf {α : Type} : Result α → Option Fault
  | .fault f => some f
  | _ => none

/-- The refusal of an outcome, if it is one. -/
def refusalOf {α : Type} : Result α → Option Refusal
  | .refused r => some r
  | _ => none

/-- The vectors' start state: the reference configuration, everything 0. -/
abbrev base : State := State.reset

/-- The reference configuration with RAM of 500 cells (spec/95_test_vectors.md V2, V7.4). -/
def smallRam : Config := { Config.reference with loMax := 499 }

/-- A configuration with one device entry. -/
def oneDevice : Config := { Config.reference with deviceEntries := [⟨[.literal "dev", .fromDeviceChannel]⟩] }

/-- A state with a device mapping over RAM 100 to 199, which no step makes. -/
def mapped : State := { base with deviceMappings := [attachedMapping 100 0 99 "from" "to"] }

/-! ## Decoding: each row's word, written out (R72) -/

theorem test_decode_nop : decodeTableWord 8 0 = some .nop := by decide
theorem test_decode_dbRam : decodeTableWord 8 1 = some .dbRam := by decide
theorem test_decode_ramDb : decodeTableWord 8 2 = some .ramDb := by decide
theorem test_decode_dbIns : decodeTableWord 8 3 = some .dbIns := by decide
theorem test_decode_insAb : decodeTableWord 8 4 = some .insAb := by decide
theorem test_decode_insMc : decodeTableWord 8 5 = some .insMc := by decide
theorem test_decode_reserved : decodeTableWord 8 6 = some .reserved := by decide
theorem test_decode_mc0 : decodeTableWord 8 7 = some .mc0 := by decide
theorem test_decode_pcAb : decodeTableWord 8 8 = some .pcAb := by decide
theorem test_decode_pcInc : decodeTableWord 8 9 = some .pcInc := by decide
theorem test_decode_if0PcInc : decodeTableWord 8 10 = some .if0PcInc := by decide
theorem test_decode_insPc : decodeTableWord 8 11 = some .insPc := by decide
theorem test_decode_acc0 : decodeTableWord 8 12 = some .acc0 := by decide
theorem test_decode_plus : decodeTableWord 8 13 = some .plus := by decide
theorem test_decode_minus : decodeTableWord 8 14 = some .minus := by decide
theorem test_decode_accDb : decodeTableWord 8 15 = some .accDb := by decide
theorem test_decode_accInc : decodeTableWord 8 16 = some .accInc := by decide
theorem test_decode_accDec : decodeTableWord 8 17 = some .accDec := by decide
theorem test_decode_dbAcc : decodeTableWord 8 18 = some .dbAcc := by decide
theorem test_decode_stop : decodeTableWord 8 19 = some .stop := by decide
theorem test_decode_insDb : decodeTableWord 8 20 = some .insDb := by decide
theorem test_decode_insMur1 : decodeTableWord 8 21 = some .insMur1 := by decide
theorem test_decode_insMur2 : decodeTableWord 8 22 = some .insMur2 := by decide
theorem test_decode_murMc : decodeTableWord 8 23 = some .murMc := by decide
theorem test_decode_iomap : decodeTableWord 8 24 = some .iomap := by decide
theorem test_decode_unrecognised : decodeTableWord 8 25 = none := by decide
theorem test_decode_sentinel : decodeTableWord 16 999 = none := by decide
theorem test_mnemonic : Instr.ofMnemonic "if_0_pc_inc" = some .if0PcInc := by decide
theorem test_mnemonic_reserved_has_none : Instr.ofMnemonic "reserved" = none := by decide

/-! ## Well-formedness: an ill-formed term for each check -/

/-- Two micro-operations with one code. -/
def ambiguous : Config := { Config.reference with codeOf := { defaultCodeOf with dbRam := 0 } }

theorem test_instr_wf_refuses_shared_code : Instr.nop.wf ambiguous = false := by decide
theorem test_valid_refuses_shared_code : ¬ ambiguous.Valid := by decide
theorem test_valid_refuses_lo_max_zero : ¬ { Config.reference with loMax := 0 }.Valid := by decide
theorem test_valid_smallest : { Config.reference with hiMax := 0, loMax := 1, mcAddrMax := 0 }.Valid := by decide

/-- An image of the reference configuration with nothing in it. -/
def emptyImage : LaunchImage := ⟨.reference, 0, 0, 0, 0, 0, [], [], []⟩

theorem test_launch_empty_is_reset : launch emptyImage = some State.reset := by decide
theorem test_launch_refuses_config : launch { emptyImage with cfg := ambiguous } = none := by decide
theorem test_launch_refuses_data_bus : launch { emptyImage with dataBus := 20000 } = none := by decide
theorem test_launch_refuses_ins : launch { emptyImage with ins := 20000 } = none := by decide
theorem test_launch_refuses_acc : launch { emptyImage with acc := 20000 } = none := by decide
theorem test_launch_refuses_ram_address : launch { emptyImage with ram := [(1000, 1)] } = none := by decide
theorem test_launch_refuses_ram_word : launch { emptyImage with ram := [(0, 20000)] } = none := by decide
theorem test_launch_refuses_mc_address : launch { emptyImage with microcode := [(200, .code 1)] } = none := by decide
theorem test_launch_refuses_unknown_name :
    launch { emptyImage with microcode := [(0, .name "jump")] } = none := by decide

/-! ## Word arithmetic (V1) -/

theorem test_modulus_lo_max_10 : modulus { Config.reference with loMax := 10 } = 100 := by decide
theorem test_word_max_lo_max_1000 : wordMax { Config.reference with hiMax := 5, loMax := 1000 } = 51000 := by decide
theorem test_hi_12345 : hi .reference 12345 = 12 := by decide
theorem test_lo_12345 : lo .reference 12345 = 345 := by decide
theorem test_sat_below : sat .reference (-1) = 0 := by decide
theorem test_sat_above : sat .reference 39998 = 19999 := by decide

/-! ## One micro-operation each (V2 to V7) -/

/-- V2.2. -/
theorem test_dbRam_last_cell :
    (nextOf (exec .dbRam { base with addressBus := 999, dataBus := 19999 })).map (·.ram) = some [(999, 19999)] := by
  decide
/-- V2.3. -/
theorem test_dbRam_out_of_range :
    faultOf (exec .dbRam { base with addressBus := 1000, dataBus := 1 }) = some (.ramAddressOutOfRange 1000) := by decide
/-- V2.4. -/
theorem test_ramDb :
    (nextOf (exec .ramDb { base with addressBus := 5, dataBus := 7, ram := [(5, 42)] })).map (·.dataBus) = some 42 := by
  decide
/-- V2.6. -/
theorem test_ramDb_out_of_range :
    faultOf (exec .ramDb { base with addressBus := 1000 }) = some (.ramAddressOutOfRange 1000) := by decide
/-- V2.7. -/
theorem test_dbIns : (nextOf (exec .dbIns { base with dataBus := 4012, ins := 99 })).map (·.ins) = some 4012 := by decide
/-- V2.8. -/
theorem test_insAb : (nextOf (exec .insAb { base with ins := 4012, addressBus := 3 })).map (·.addressBus) = some 12 := by
  decide
/-- V2.12. -/
theorem test_pcAb_unchecked :
    (nextOf (exec .pcAb { base with programCounter := 1000 })).map (·.addressBus) = some 1000 := by decide
/-- V2.13. -/
theorem test_accDb : (nextOf (exec .accDb { base with acc := 42, dataBus := 9 })).map (·.dataBus) = some 42 := by decide
/-- V2.14. -/
theorem test_insDb : (nextOf (exec .insDb { base with ins := 3017, dataBus := 9 })).map (·.dataBus) = some 17 := by decide
/-- V3.3. -/
theorem test_pcInc_not_clamped :
    (nextOf (exec .pcInc { base with programCounter := 19999 })).map (·.programCounter) = some 20000 := by decide
/-- V3.4. -/
theorem test_if0PcInc_zero :
    (nextOf (exec .if0PcInc { base with programCounter := 8 })).map (·.programCounter) = some 9 := by decide
/-- V3.5. -/
theorem test_if0PcInc_nonzero :
    (nextOf (exec .if0PcInc { base with acc := 3, programCounter := 8 })).map (·.programCounter) = some 8 := by decide
/-- V3.7. -/
theorem test_insPc :
    (nextOf (exec .insPc { base with ins := 5003, programCounter := 1 })).map (·.programCounter) = some 3 := by decide
/-- V4.1. -/
theorem test_acc0 : (nextOf (exec .acc0 { base with acc := 777 })).map (·.acc) = some 0 := by decide
/-- V4.2. -/
theorem test_plus : (nextOf (exec .plus { base with acc := 7, dataBus := 35 })).map (·.acc) = some 42 := by decide
/-- V4.3. -/
theorem test_plus_clamps :
    (nextOf (exec .plus { base with acc := 19000, dataBus := 1500 })).map (·.acc) = some 19999 := by decide
/-- V4.6. -/
theorem test_minus : (nextOf (exec .minus { base with acc := 42, dataBus := 7 })).map (·.acc) = some 35 := by decide
/-- V4.8. -/
theorem test_minus_clamps : (nextOf (exec .minus { base with acc := 7, dataBus := 42 })).map (·.acc) = some 0 := by decide
/-- V4.12. -/
theorem test_accInc_clamps : (nextOf (exec .accInc { base with acc := 19999 })).map (·.acc) = some 19999 := by decide
/-- V4.14. -/
theorem test_accDec_clamps : (nextOf (exec .accDec { base with acc := 0 })).map (·.acc) = some 0 := by decide
/-- R148's example. -/
theorem test_dbAcc_clamps : (nextOf (exec .dbAcc { base with dataBus := 25000 })).map (·.acc) = some 19999 := by decide
/-- V5.2. -/
theorem test_insMur1 :
    (nextOf (exec .insMur1 { base with ins := 7500, mur := ⟨1, 2, 3⟩ })).map (·.mur) = some ⟨500, 2, 3⟩ := by decide
/-- V5.3. -/
theorem test_insMur2 :
    (nextOf (exec .insMur2 { base with ins := 7019, mur := ⟨50, 0, 0⟩ })).map (·.mur) = some ⟨50, 19, 7⟩ := by decide
/-- V5.6. -/
theorem test_murMc :
    (nextOf (exec .murMc { base with mur := ⟨50, 19, 7⟩ })).map (fun t => (t.microcode, t.symtab, t.mur)) =
      some ([(50, 19)], [(7, 50)], ⟨0, 0, 0⟩) := by decide
/-- V5.12. -/
theorem test_murMc_out_of_range :
    faultOf (exec .murMc { base with mur := ⟨500, 500, 7⟩ }) = some (.mcWriteOutOfRange 500) := by decide
/-- V6.1. -/
theorem test_nop : (nextOf (exec .nop { base with mcAddr := 4 })).map (·.mcAddr) = some 5 := by decide
/-- V6.2. -/
theorem test_mc0 : (nextOf (exec .mc0 { base with mcAddr := 14 })).map (·.mcAddr) = some 0 := by decide
/-- V6.4. -/
theorem test_insMc :
    (nextOf (exec .insMc { base with mcAddr := 3, ins := 2011, symtab := [(2, 20)] })).map (·.mcAddr) = some 20 := by
  decide
/-- V6.5. -/
theorem test_insMc_absent : (nextOf (exec .insMc { base with mcAddr := 7, ins := 15000 })).map (·.mcAddr) = some 0 := by
  decide
/-- V6.9. -/
theorem test_stop :
    (nextOf (exec .stop { base with mcAddr := 6 })).map (fun t => (t.mcAddr, t.answer)) = some (7, .halts) := by decide
/-- V6.13. -/
theorem test_reserved_fatal :
    faultOf (exec .reserved { base with mcAddr := 1 }) = some (.unrecognisedMicroOp 6 1) := by decide
/-- V6.13, the other policy. -/
theorem test_reserved_nop :
    (nextOf (exec .reserved { base with cfg := { Config.reference with reserved6Policy := .nop }, mcAddr := 1 })).map
      (·.mcAddr) = some 2 := by decide
/-- V7.2. -/
theorem test_iomap_absent :
    (nextOf (exec .iomap { base with cfg := oneDevice, ins := 9100, ram := [(100, 1)] })).map (·.mcAddr) = some 1 := by
  decide
/-- V7.3. -/
theorem test_iomap_present :
    refusalOf (exec .iomap { base with cfg := oneDevice, ins := 9100 }) = some (.deviceAttachNotModelled 0) := by decide

/-! ## Steps (V6, V8) -/

/-- V6.11, second step. -/
theorem test_step_past_the_store : faultOf (step { base with mcAddr := 200 }) = some (.mcAddrOutOfRange 200) := by decide
/-- V6.12. -/
theorem test_step_unrecognised :
    faultOf (step { base with mcAddr := 1, microcode := [(1, 25)] }) = some (.unrecognisedMicroOp 25 1) := by decide
/-- R7. -/
theorem test_step_invalid_configuration :
    refusalOf (step { base with cfg := ambiguous }) = some .invalidConfiguration := by decide
/-- R181: a frame with the handshake text `100 199` is the byte 7 and seven bytes. -/
theorem test_frame_of_seven_bytes :
    (writeFrame [49, 48, 48, 32, 49, 57, 57]).map List.length = some 8 := by decide

end Sys2Proof.Tests
end

