-- ==== Sys2Proof/Tests/Witnesses.lean ====
section
/-! SUPPORT. For each statement of Certificates/Slice0/Obligations.lean with hypotheses, concrete states and operands
that meet them, clause by clause and at the edges of the ranges. -/

namespace Sys2Proof.Tests

open Sys2Proof Sys2Proof.Machine

theorem inRange_of_empty_ram {s : State} (hd : s.dataBus ≤ wordMax s.cfg) (hi : s.ins ≤ wordMax s.cfg)
    (ha : s.acc ≤ wordMax s.cfg) (hr : s.ram = []) : s.InRange :=
  ⟨hd, hi, ha, fun a _ => by rw [hr]; exact Nat.zero_le _⟩

theorem reset_range : base.InRange := inRange_of_empty_ram (by decide) (by decide) (by decide) rfl

theorem reset_inv : base.Inv :=
  ⟨by decide, by decide, by decide, by decide, by decide, by decide, reset_range, by decide, by decide, by decide, rfl⟩

theorem witness_DigitCountIsTheDecimalLength :
    (1 ≤ 1 ∧ 10 ^ (1 - 1) ≤ 1 ∧ 1 < 10 ^ 1) ∧ (1 ≤ 2 ∧ 10 ^ (2 - 1) ≤ 10 ∧ 10 < 10 ^ 2) := by decide

theorem witness_ModulusIsThePowerOfTenAboveLoMax :
    1 ≤ Config.reference.loMax ∧ step base = .next (base.setCursor 1 .continues) ∧
      { base with cfg := { Config.reference with loMax := 0 } }.cfg.loMax = 0 :=
  ⟨by decide, rfl, rfl⟩

theorem witness_DigitGroupsSplitAndRecompose :
    1 ≤ Config.reference.loMax ∧ 19999 ≤ wordMax .reference ∧ 999 < modulus .reference := by decide

theorem witness_SaturationClampsIntegers :
    (-1 : Int) < 0 ∧ (0 : Int) ≤ 19999 ∧ (19999 : Int) ≤ (wordMax .reference : Int) ∧
      (wordMax .reference : Int) < 20000 := by decide

theorem witness_DecodeAndEncodeAgree :
    Config.reference.Valid ∧ decode .reference 24 = .ok .iomap ∧
      decode .reference 25 = .error (.unrecognised 25) :=
  ⟨by decide, rfl, rfl⟩

theorem witness_DefaultCodesDecodeToTheirRows : (0, Instr.nop) ∈ [(0, Instr.nop)] ∧ 25 ≤ 25 := by decide

theorem witness_MnemonicsNameTheMicroOps :
    Instr.nop ≠ .reserved ∧ Instr.nop.mnemonic = some "nop" ∧ (Instr.nop, "nop") ∈ [(Instr.nop, "nop")] := by decide

theorem witness_StepRunsTheDecodedMicroOp :
    base.cfg.Valid ∧ { base with mcAddr := 199 }.mcAddr ≤ base.cfg.mcAddrMax ∧
      decode base.cfg (base.microcode.read 199) = .ok .nop :=
  ⟨by decide, by decide, rfl⟩

theorem witness_FetchAndDecodeFaults :
    base.cfg.Valid ∧ base.cfg.mcAddrMax < { base with mcAddr := 200 }.mcAddr ∧
      base.mcAddr ≤ base.cfg.mcAddrMax ∧
      ∀ i, encode base.cfg i ≠ { base with microcode := [(0, 25)] }.microcode.read base.mcAddr :=
  ⟨by decide, by decide, by decide, fun i => by cases i <;> decide⟩

theorem witness_FaultsAreExactlyTheTable :
    exec .reserved base = .fault (.unrecognisedMicroOp 6 0) ∧
    exec .ramDb { base with addressBus := 1000 } = .fault (.ramAddressOutOfRange 1000) ∧
    exec .iomap { base with cfg := smallRam, ins := 9700 } = .fault (.ramAddressOutOfRange 700) ∧
    exec .murMc { base with mur := ⟨200, 0, 0⟩ } = .fault (.mcWriteOutOfRange 200) ∧
    step { base with microcode := [(0, 6)] } = .fault (.unrecognisedMicroOp 6 0) :=
  ⟨rfl, rfl, rfl, rfl, rfl⟩

theorem witness_RefusalsAreExactlyThese :
    exec .dbRam { mapped with addressBus := 100 } = .refused (.deviceWindowNotModelled 100) ∧
    exec .ramDb { mapped with addressBus := 199 } = .refused (.deviceWindowNotModelled 199) ∧
    exec .iomap { mapped with ins := 150 } = .refused (.deviceWindowNotModelled 150) ∧
    exec .iomap { base with cfg := oneDevice } = .refused (.deviceAttachNotModelled 0) ∧
    ¬ ambiguous.Valid ∧
    step { base with cfg := ambiguous } = .refused .invalidConfiguration ∧
    step { base with cfg := oneDevice, mcAddr := 199, microcode := [(199, 24)] } =
      .refused (.deviceAttachNotModelled 0) :=
  ⟨rfl, rfl, rfl, rfl, by decide, rfl, rfl⟩

theorem witness_EveryMicroOpCompletesWhenReady :
    { base with addressBus := 999 }.Ready .dbRam ∧ { mapped with addressBus := 99 }.Ready .ramDb ∧
    { base with cfg := { Config.reference with reserved6Policy := .nop } }.Ready .reserved ∧
    { base with mur := ⟨300, 999, 7⟩ }.Ready .murMc ∧ { base with mur := ⟨199, 0, 0⟩ }.Ready .murMc ∧
    { base with cfg := oneDevice, ram := [(0, 1)] }.Ready .iomap := by
  refine ⟨⟨by decide, by decide⟩, ⟨by decide, by decide⟩, rfl, fun h => absurd rfl h, fun _ => by decide,
    by decide, by decide, by decide⟩

theorem witness_ControlMicroOpsMoveTheCursor :
    cellFind (2011 / modulus .reference) [(2, 20)] = some 20 ∧ cellFind (15000 / modulus .reference) [] = none := by
  decide

theorem witness_ReservedCodeFollowsThePolicy :
    base.cfg.reserved6Policy = .fatal ∧
      { Config.reference with reserved6Policy := .nop }.reserved6Policy = .nop := by decide

theorem witness_RamAccess_completes :
    { base with addressBus := 999 }.addressBus ≤ base.cfg.loMax ∧ inDeviceWindow base 999 = false ∧
      inDeviceWindow mapped 99 = false ∧ inDeviceWindow mapped 200 = false := by decide

theorem witness_RamAccess_faults : base.cfg.loMax < { base with addressBus := 1000 }.addressBus := by decide

theorem witness_RamAccess_refused :
    { mapped with addressBus := 100 }.addressBus ≤ mapped.cfg.loMax ∧ inDeviceWindow mapped 100 = true ∧
      inDeviceWindow mapped 199 = true := by decide

theorem witness_ProgramCounterMicroOps : base.acc = 0 ∧ { base with acc := 1 }.acc ≠ 0 := by decide

theorem witness_AccumulatorMicroOpsClamp : { base with acc := 19999 }.acc ≤ wordMax base.cfg := by decide

theorem witness_CommitAppliesTheUpdateRegister :
    let store : UpdateRegister := ⟨199, 19, 7⟩
    let bind : UpdateRegister := ⟨300, 999, 7⟩
    let outside : UpdateRegister := ⟨200, 19, 0⟩
    (store.microOp ≠ base.cfg.loMax → store.address ≤ base.cfg.mcAddrMax) ∧ bind.microOp = base.cfg.loMax ∧
      outside.symbol = 0 ∧ outside.microOp ≠ base.cfg.loMax ∧ base.cfg.mcAddrMax < outside.address := by decide

theorem witness_IomapLooksUpItsDeviceEntry :
    (lo .reference 9999 ≤ Config.reference.loMax ∧ inDeviceWindow base 999 = false ∧
      base.cfg.deviceEntries.length ≤ base.ram.read 999) ∧
    base.ram.read 100 < oneDevice.deviceEntries.length ∧ smallRam.loMax < lo smallRam 9500 ∧
    (lo mapped.cfg 9100 ≤ mapped.cfg.loMax ∧ inDeviceWindow mapped (lo mapped.cfg 9100) = true) := by decide

theorem witness_next_dbRam :
    exec .dbRam { base with dataBus := 5 } = .next ({ base with dataBus := 5, ram := [(0, 5)] }.setCursor 1 .continues) :=
  rfl

/-- Each register, store and the update register is changed by some micro-operation. -/
theorem witness_StateIsWrittenOnlyByItsMicroOps :
    (nextOf (exec .pcAb { base with programCounter := 5 })).map (·.addressBus) = some 5 ∧
    (nextOf (exec .accDb { base with acc := 5 })).map (·.dataBus) = some 5 ∧
    (nextOf (exec .dbIns { base with dataBus := 5 })).map (·.ins) = some 5 ∧
    (nextOf (exec .pcInc base)).map (·.programCounter) = some 1 ∧
    (nextOf (exec .accInc base)).map (·.acc) = some 1 ∧
    (nextOf (exec .dbRam { base with dataBus := 5 })).map (·.ram) = some [(0, 5)] ∧
    (nextOf (exec .murMc { base with mur := ⟨0, 5, 6⟩ })).map (fun t => (t.microcode, t.symtab)) =
      some ([(0, 5)], [(6, 0)]) ∧
    (nextOf (exec .insMur1 { base with ins := 5 })).map (·.mur) = some ⟨5, 0, 0⟩ := by decide

theorem witness_AStepChangesOnlyTheAddressedCells :
    step { base with microcode := [(0, 1)], dataBus := 5 } =
      .next ({ base with microcode := [(0, 1)], dataBus := 5, ram := [(0, 5)] }.setCursor 1 .continues) ∧
    1 ≠ base.addressBus ∧ 1 ≠ base.mur.address ∧ 1 ≠ base.mur.symbol :=
  ⟨rfl, by decide, by decide, by decide⟩

theorem witness_CursorAfterEachMicroOp :
    step { base with mcAddr := 199 } = .next (base.setCursor 200 .continues) ∧
      (base.setCursor 200 .continues).mcAddr = base.cfg.mcAddrMax + 1 ∧
      step { base with mcAddr := 200 } = .fault (.mcAddrOutOfRange 200) ∧
      runToHalt 2 { base with mcAddr := 199 } = .aborted (.mcAddrOutOfRange 200) (base.setCursor 200 .continues) ∧
      runToHalt 1 { base with mcAddr := 199 } = .unfinished (base.setCursor 200 .continues) :=
  ⟨rfl, rfl, rfl, rfl, rfl⟩

theorem witness_OnlyStopHalts :
    step { base with microcode := [(0, 19)] } = .next ({ base with microcode := [(0, 19)] }.setCursor 1 .halts) ∧
      step base = .next (base.setCursor 1 .continues) :=
  ⟨rfl, rfl⟩

theorem witness_ValuesStayWithinWordMax : base.InRange ∧ step base = .next (base.setCursor 1 .continues) :=
  ⟨reset_range, rfl⟩

theorem witness_EveryStepKeepsTheStateWellFormed : base.Inv ∧ step base = .next (base.setCursor 1 .continues) :=
  ⟨reset_inv, rfl⟩

/-- The refusal clause: a well-formed state with a device entry whose first step is `iomap`. -/
theorem witness_RunsStayWellFormed :
    let s := { base with cfg := oneDevice, microcode := [(0, 24)] }
    s.Inv ∧ runToHalt 1 s = .refused (.deviceAttachNotModelled 0) s :=
  ⟨⟨by decide, by decide, by decide, by decide, by decide, by decide,
      inRange_of_empty_ram (by decide) (by decide) (by decide) rfl, by decide, by decide, by decide, rfl⟩, rfl⟩

theorem witness_ResetIsAWellFormedLaunchState : base.LaunchOk :=
  ⟨by decide, by decide, by decide, by decide, by decide, by decide, reset_range, rfl, rfl, rfl⟩

/-- An image that lists a RAM cell twice, a code by name and a symbol, and leaves others unlisted. -/
theorem witness_LaunchMeetsTheLaunchCondition :
    (launch { emptyImage with
        ram := [(5, 1), (5, 42)], microcode := [(1, .name "stop")], symbols := [(7, 50)] }).map
      (fun s => (s.ram, s.microcode, s.symtab)) = some ([(5, 42)], [(1, 19)], [(7, 50)]) ∧
    (6 ∉ [(5, 1), (5, 42)].map Prod.fst) ∧ 0 ∉ [(1, ImageCode.name "stop")].map Prod.fst ∧ 5 ∉ ([] : List (Nat × Nat)).map Prod.fst ∧
    (ImageCode.name "stop").resolve .reference = some 19 ∧ 8 ∉ [(7, 50)].map Prod.fst := by decide

theorem witness_SymbolTableLastWriteWins :
    cellFind 7 [] = none ∧ cellFind 7 [(7, 50)] = some 50 ∧ 8 ≠ 7 ∧
      (cellFind 7 { base with symtab := [(7, 50)] }.symtab).isSome = true ∧
      (nextOf (step { base with symtab := [(7, 50)] })).isSome = true := by decide

theorem witness_CommitsAreSeenByTheNextStep :
    let s := { base with mcAddr := 9, microcode := [(9, 23)], mur := ⟨10, 19, 0⟩ }
    let t := ({ base with microcode := [(9, 23), (10, 19)] } : State).setCursor 10 .continues
    step s = .next t ∧ s.microcode.read s.mcAddr = encode s.cfg .murMc ∧ s.mur.microOp ≠ s.cfg.loMax ∧
      s.mur.address = s.mcAddr + 1 ∧ decode s.cfg s.mur.microOp = .ok .stop :=
  ⟨rfl, by decide, by decide, rfl, rfl⟩

theorem witness_CommitsAreSeenByTheNextStep_symbol :
    let s := { base with ins := 7000, mur := ⟨50, 999, 7⟩ }
    (nextOf (exec .murMc s)).isSome = true ∧ s.mur.symbol ≠ 0 ∧ hi s.cfg s.ins = s.mur.symbol := by decide

theorem witness_StagedUpdateInstallsAnOpcode :
    lo .reference 199 ≤ Config.reference.mcAddrMax ∧ lo .reference 7019 ≠ Config.reference.loMax ∧
      hi .reference 7019 ≠ 0 := by decide

theorem witness_IndirectLoadGoesThroughThePointer :
    let s := { base with ins := 5, ram := [(5, 999)] }
    s.deviceMappings = [] ∧ lo s.cfg s.ins ≤ s.cfg.loMax ∧ lo s.cfg (s.ram.read (lo s.cfg s.ins)) ≤ s.cfg.loMax := by
  decide

theorem witness_UnstagedCommitClearsCellZero :
    base.cfg.Valid ∧ { base with microcode := [(0, 8)] }.mur = ⟨0, 0, 0⟩ := by decide

/-- A commit that changes the last microcode cell, from a well-formed state. -/
theorem witness_CommitReachAndSentinel :
    let s := { base with microcode := [(0, 23)], mur := ⟨199, 19, 0⟩ }
    s.Inv ∧ step s = .next (({ base with microcode := [(0, 23), (199, 19)] } : State).setCursor 1 .continues) ∧
      Memory.read [(0, 23), (199, 19)] 199 ≠ s.microcode.read 199 :=
  ⟨⟨by decide, by decide, by decide, by decide, by decide, by decide,
      inRange_of_empty_ram (by decide) (by decide) (by decide) rfl, by decide, by decide, by decide, rfl⟩,
    rfl, by decide⟩

theorem witness_MicroControlDependsOnlyOnIns :
    step base = .next (base.setCursor 1 .continues) ∧
      step { base with acc := 5, programCounter := 9 } =
        .next ({ base with acc := 5, programCounter := 9 }.setCursor 1 .continues) :=
  ⟨rfl, rfl⟩

theorem witness_UpperGroupReachesOnlySymbols :
    lo base.cfg 7019 = lo base.cfg { base with ins := 19 }.ins ∧
      exec .insMur2 { base with ins := 19 } =
        .next ({ base with ins := 19, mur := ⟨0, 19, 0⟩ }.setCursor 1 .continues) ∧ Instr.insMur2 ≠ .insMc :=
  ⟨by decide, rfl, by decide⟩

theorem witness_HowARunEnds :
    runToHalt 1 { base with microcode := [(0, 19)] } =
      .halted ({ base with microcode := [(0, 19)] }.setCursor 1 .halts) ∧
    runToHalt 2 { base with microcode := [(1, 25)] } =
      .aborted (.unrecognisedMicroOp 25 1) ({ base with microcode := [(1, 25)] }.setCursor 1 .continues) :=
  ⟨rfl, rfl⟩

theorem witness_McZeroAtZeroHangs :
    base.cfg.Valid ∧ base.mcAddr = 0 ∧
      { base with microcode := [(0, 7)] }.microcode.read 0 = encode base.cfg .mc0 := by decide

theorem witness_PlacedCodeRunsNext :
    { base with mcAddr := 200 }.cfg.Valid ∧ decode base.cfg 24 = .ok .iomap :=
  ⟨by decide, rfl⟩

theorem witness_FramesReadBack :
    (List.replicate 255 (0 : Byte)).length ≤ 255 ∧ 255 < (List.replicate 256 (0 : Byte)).length := by
  simp only [List.length_replicate]; decide

theorem witness_AttachedWindowTranslatesAndRefuses :
    0 ≤ 99 ∧ 100 ≤ 199 ∧ 199 ≤ 100 + (99 - 0) ∧ 199 ≤ base.cfg.loMax ∧
      refusalOf (memWrite (finishAttach base 100 [0, 99] "from" "to") 199 5) = some (.deviceWindowNotModelled 199) ∧
      (attachedMapping 100 0 99 "from" "to").addressOffset = -100 := by decide

end Sys2Proof.Tests
end

/-! The table of Fatal causes (spec/60_exceptions.md section 2): what decoding answers, as an equivalence; when each
micro-operation raises Fatal; and the causes a step has beside them. -/

namespace Sys2Proof

/-! ## Decoding -/

/-- R73: `decode` searches the table, and every micro-operation stands in it, so only a code of no row is rejected. -/
theorem decode_eq_error {cfg : Config} {c c' : Nat} :
    decode cfg c = .error (.unrecognised c') ↔ c' = c ∧ ∀ i, encode cfg i ≠ c := by
  unfold decode encode
  split
  · next i hi =>
    have hc : cfg.codeOf.code i = c := by simpa using List.find?_some hi
    simp only [reduceCtorEq, false_iff, not_and]
    exact fun _ hne => hne i hc
  · next hnone =>
    have hne : ∀ i, cfg.codeOf.code i ≠ c := fun i => by
      simpa using List.find?_eq_none.mp hnone i (Instr.mem_all i)
    simp [hne, eq_comm]

/-- R73: where no two rows share a code, a cell decodes to exactly the micro-operation whose code it holds. -/
theorem decode_eq_ok {cfg : Config} (hv : cfg.Valid) {c : Nat} {i : Instr} :
    decode cfg c = .ok i ↔ encode cfg i = c := by
  refine ⟨code_of_decode, fun hc => ?_⟩
  cases hd : decode cfg c with
  | ok j => rw [hv.code_injective ((code_of_decode hd).trans hc.symm)]
  | error e =>
    obtain ⟨c'⟩ := e
    exact absurd hc ((decode_eq_error.mp hd).2 i)

end Sys2Proof

namespace Sys2Proof.Machine

variable {s : State} {f : Fault}

/-! ## The micro-operations that can raise Fatal -/

theorem exec_reserved_eq_fault :
    exec .reserved s = .fault f ↔
      s.cfg.reserved6Policy = .fatal ∧ f = .unrecognisedMicroOp (encode s.cfg .reserved) s.mcAddr := by
  simp only [exec, execReserved]
  cases s.cfg.reserved6Policy <;> simp [eq_comm]

theorem exec_dbRam_eq_fault :
    exec .dbRam s = .fault f ↔ s.cfg.loMax < s.addressBus ∧ f = .ramAddressOutOfRange s.addressBus := by
  simp [exec, execDbRam, andThen_eq_fault, memWrite_eq_fault]

theorem exec_ramDb_eq_fault :
    exec .ramDb s = .fault f ↔ s.cfg.loMax < s.addressBus ∧ f = .ramAddressOutOfRange s.addressBus := by
  simp [exec, execRamDb, andThen_eq_fault, memRead_eq_fault]

/-- R170: only the index read of `iomap` can raise Fatal; an index that names an entry is refused. -/
theorem exec_iomap_eq_fault :
    exec .iomap s = .fault f ↔
      s.cfg.loMax < lo s.cfg s.ins ∧ f = .ramAddressOutOfRange (lo s.cfg s.ins) := by
  simp only [exec, execIomap, andThen_eq_fault, memRead_eq_fault, or_iff_left_iff_imp]
  rintro ⟨idx, -, h⟩
  split at h <;> simp at h

theorem commitCode_eq_fault :
    commitCode s = .fault f ↔
      s.mur.microOp ≠ s.cfg.loMax ∧ s.cfg.mcAddrMax < s.mur.address ∧ f = .mcWriteOutOfRange s.mur.address := by
  unfold commitCode
  by_cases hdue : s.mur.microOp ≠ s.cfg.loMax <;> simp [hdue, mcWrite_eq_fault]

theorem exec_murMc_eq_fault :
    exec .murMc s = .fault f ↔
      s.mur.microOp ≠ s.cfg.loMax ∧ s.cfg.mcAddrMax < s.mur.address ∧ f = .mcWriteOutOfRange s.mur.address := by
  simp [exec, execMurMc, andThen_eq_fault, commitCode_eq_fault]

/-- R195: the table of causes, over every micro-operation; one that is not named in it always completes. -/
theorem exec_eq_fault (i : Instr) :
    exec i s = .fault f ↔
      (i = .reserved ∧ s.cfg.reserved6Policy = .fatal ∧
        f = .unrecognisedMicroOp (encode s.cfg .reserved) s.mcAddr) ∨
      ((i = .dbRam ∨ i = .ramDb) ∧ s.cfg.loMax < s.addressBus ∧ f = .ramAddressOutOfRange s.addressBus) ∨
      (i = .iomap ∧ s.cfg.loMax < lo s.cfg s.ins ∧ f = .ramAddressOutOfRange (lo s.cfg s.ins)) ∨
      (i = .murMc ∧ s.mur.microOp ≠ s.cfg.loMax ∧ s.cfg.mcAddrMax < s.mur.address ∧
        f = .mcWriteOutOfRange s.mur.address) := by
  cases i with
  | reserved => simp [exec_reserved_eq_fault]
  | dbRam => simp [exec_dbRam_eq_fault]
  | ramDb => simp [exec_ramDb_eq_fault]
  | iomap => simp [exec_iomap_eq_fault]
  | murMc => simp [exec_murMc_eq_fault]
  | if0PcInc => simp [exec_if0PcInc]
  | _ => simp

/-! ## The step -/

/-- R101, R102: the two causes of the fetch, and those of the micro-operation whose code the cell holds. -/
theorem step_eq_fault_table :
    step s = .fault f ↔
      s.cfg.Valid ∧
        ((s.cfg.mcAddrMax < s.mcAddr ∧ f = .mcAddrOutOfRange s.mcAddr) ∨
         (s.mcAddr ≤ s.cfg.mcAddrMax ∧ (∀ i, encode s.cfg i ≠ s.microcode.read s.mcAddr) ∧
            f = .unrecognisedMicroOp (s.microcode.read s.mcAddr) s.mcAddr) ∨
         (s.mcAddr ≤ s.cfg.mcAddrMax ∧
            ∃ i, encode s.cfg i = s.microcode.read s.mcAddr ∧ exec i s = .fault f)) := by
  rw [step_eq_fault]
  simp only [fetchInstr_eq_fault, fetchInstr_eq_next]
  by_cases hv : s.cfg.Valid
  · simp only [iff_true_intro hv, true_and, decode_eq_ok hv, decode_eq_error, and_assoc, exists_and_left,
      exists_eq_left, or_assoc]
  · simp [hv]

/-- Settles O10: the micro-operations' table and the step's. -/
theorem faultsAreExactlyTheTable : Obligations.FaultsAreExactlyTheTable :=
  ⟨fun i _ _ => exec_eq_fault i, fun _ _ => step_eq_fault_table⟩

end Sys2Proof.Machine

/-! The symbol table (R34): the one micro-operation that can change it, and what its insertion leaves in place. -/

namespace Sys2Proof.Machine

variable {s t : State}

/-! ## What an insertion does to the entries -/

@[simp] theorem cellFind_symInsert_same (t : SymbolTable) (k a : Nat) : cellFind k (symInsert t k a) = some a :=
  cellFind_cellSet_same ..

@[simp] theorem cellFind_symInsert_other {k j : Nat} (h : j ≠ k) (t : SymbolTable) (a : Nat) :
    cellFind j (symInsert t k a) = cellFind j t :=
  cellFind_cellSet_other h ..

/-- R34: "there is no operation that removes an entry". -/
theorem cellFind_symInsert_isSome {t : SymbolTable} {j : Nat} (h : (cellFind j t).isSome = true) (k a : Nat) :
    (cellFind j (symInsert t k a)).isSome = true := by
  by_cases hj : j = k
  · simp [hj]
  · simpa [hj] using h

/-! ## Which steps insert -/

/-- R34, R159: a completing micro-operation keeps the table, or it is a commit and binds the staged symbol, not 0. -/
theorem exec_symtab_cases {i : Instr} (h : exec i s = .next t) :
    t.symtab = s.symtab ∨
      (i = .murMc ∧ s.mur.symbol ≠ 0 ∧ t.symtab = symInsert s.symtab s.mur.symbol s.mur.address) := by
  cases i with
  | murMc =>
    obtain ⟨-, rfl⟩ := exec_murMc_eq_next.mp h
    by_cases hsym : s.mur.symbol = 0
    · exact .inl (by simp [hsym])
    · exact .inr ⟨rfl, hsym, by simp [hsym]⟩
  | dbRam => obtain ⟨-, -, rfl⟩ := exec_dbRam_eq_next.mp h; exact .inl rfl
  | ramDb => obtain ⟨-, -, rfl⟩ := exec_ramDb_eq_next.mp h; exact .inl rfl
  | reserved => obtain ⟨-, rfl⟩ := exec_reserved_eq_next.mp h; exact .inl rfl
  | iomap => obtain ⟨-, -, -, rfl⟩ := exec_iomap_eq_next.mp h; exact .inl rfl
  | if0PcInc => rw [exec_if0PcInc] at h; cases h; exact .inl rfl
  | _ => cases h; exact .inl rfl

/-- The same of a step, which commits exactly where the cell at the cursor holds the commit's code. -/
theorem step_symtab_cases (h : step s = .next t) :
    t.symtab = s.symtab ∨
      (s.microcode.read s.mcAddr = encode s.cfg .murMc ∧ s.mur.symbol ≠ 0 ∧
        t.symtab = symInsert s.symtab s.mur.symbol s.mur.address) := by
  obtain ⟨-, -, i, hdecode, hexec⟩ := step_eq_next.mp h
  rcases exec_symtab_cases hexec with hkeep | ⟨rfl, hsym, hins⟩
  · exact .inl hkeep
  · exact .inr ⟨(code_of_decode hdecode).symm, hsym, hins⟩

theorem step_symtab_ne (h : step s = .next t) (hne : t.symtab ≠ s.symtab) :
    s.microcode.read s.mcAddr = encode s.cfg .murMc ∧ s.mur.symbol ≠ 0 := by
  rcases step_symtab_cases h with hkeep | ⟨hcommit, hsym, -⟩
  · exact absurd hkeep hne
  · exact ⟨hcommit, hsym⟩

/-- A commit that does change the table: from an entry for 7, a step binds 8 as well. -/
theorem witness_step_symtab_ne :
    ∃ u, step { State.reset with microcode := [(0, 23)], mur := ⟨50, 999, 8⟩, symtab := [(7, 60)] } = .next u ∧
      u.symtab = [(7, 60), (8, 50)] :=
  ⟨_, rfl, rfl⟩

/-- R34: "running code can never create or change the entry for key 0". -/
theorem step_keeps_symbol_zero (h : step s = .next t) : cellFind 0 t.symtab = cellFind 0 s.symtab := by
  rcases step_symtab_cases h with hkeep | ⟨-, hsym, hins⟩
  · rw [hkeep]
  · rw [hins, cellFind_symInsert_other hsym.symm]

theorem step_keeps_symbol_bound (h : step s = .next t) {k : Nat} (hk : (cellFind k s.symtab).isSome = true) :
    (cellFind k t.symtab).isSome = true := by
  rcases step_symtab_cases h with hkeep | ⟨-, -, hins⟩
  · rwa [hkeep]
  · rw [hins]
    exact cellFind_symInsert_isSome hk ..

/-- Settles O34: lookup and insertion by their laws, the step by its two cases. -/
theorem symbolTableLastWriteWins : Obligations.SymbolTableLastWriteWins :=
  ⟨fun _ _ habsent => by simp [symLookup, habsent],
   fun _ _ _ hbound => by simp [symLookup, hbound],
   fun t k a => ⟨cellFind_symInsert_same t k a, fun _ hj => cellFind_symInsert_other hj t a⟩,
   fun _ _ h => ⟨step_symtab_ne h, step_keeps_symbol_zero h, fun _ hk => step_keeps_symbol_bound h hk⟩⟩

end Sys2Proof.Machine

/-! The word arithmetic unit (R90 to R94): `lo_max` fits its own number of decimal digits, so it is a lower digit group;
`hi`, `lo` and `recompose` are division with remainder by `modulus`. -/

namespace Sys2Proof.Machine

variable {cfg : Config}

/-! ## The number of digits -/

theorem lt_ten_pow_ndigitsUpTo {fuel n : Nat} (h : n ≤ fuel) : n < 10 ^ ndigitsUpTo fuel n := by
  induction fuel generalizing n with
  | zero => exact Nat.lt_of_le_of_lt h (Nat.pow_pos (by decide))
  | succ fuel ih =>
    rw [ndigitsUpTo]
    split
    case isTrue hsmall => simpa using hsmall
    case isFalse =>
      have htail : n / 10 < 10 ^ ndigitsUpTo fuel (n / 10) := ih (by omega)
      rw [Nat.pow_succ]
      omega

/-- R94: the upper bound of the digit count. -/
theorem lt_ten_pow_ndigits (n : Nat) : n < 10 ^ ndigits n := lt_ten_pow_ndigitsUpTo (Nat.le_refl n)

theorem modulus_pos (cfg : Config) : 0 < modulus cfg := Nat.pow_pos (by decide)

theorem loMax_lt_modulus (cfg : Config) : cfg.loMax < modulus cfg := lt_ten_pow_ndigits cfg.loMax

/-! ## Splitting and recomposing -/

theorem lo_lt_modulus (cfg : Config) (v : Nat) : lo cfg v < modulus cfg := Nat.mod_lt v (modulus_pos cfg)

@[simp] theorem recompose_hi_lo (cfg : Config) (v : Nat) : recompose cfg (hi cfg v) (lo cfg v) = v :=
  Nat.div_add_mod' v (modulus cfg)

theorem hi_recompose {l : Nat} (h : Nat) (hl : l < modulus cfg) : hi cfg (recompose cfg h l) = h := by
  rw [hi, recompose, Nat.mul_comm, Nat.mul_add_div (modulus_pos cfg), Nat.div_eq_of_lt hl, Nat.add_zero]

theorem lo_recompose {l : Nat} (h : Nat) (hl : l < modulus cfg) : lo cfg (recompose cfg h l) = l :=
  Nat.mul_add_mod_of_lt hl

/-! ## The corner cases -/

/-- R93: the largest Word has the groups `(hi_max, lo_max)`. -/
theorem recompose_hiMax_loMax (cfg : Config) : recompose cfg cfg.hiMax cfg.loMax = wordMax cfg := rfl

@[simp] theorem hi_wordMax (cfg : Config) : hi cfg (wordMax cfg) = cfg.hiMax :=
  hi_recompose cfg.hiMax (loMax_lt_modulus cfg)

@[simp] theorem lo_wordMax (cfg : Config) : lo cfg (wordMax cfg) = cfg.loMax :=
  lo_recompose cfg.hiMax (loMax_lt_modulus cfg)

/-- R91: the upper group of a Word in range is in range, since `hi` is monotone and the largest Word has `hi_max`. -/
theorem hi_le_hiMax {v : Nat} (hv : v ≤ wordMax cfg) : hi cfg v ≤ cfg.hiMax :=
  calc hi cfg v ≤ hi cfg (wordMax cfg) := Nat.div_le_div_right hv
    _ = cfg.hiMax := hi_wordMax cfg

theorem hi_of_lt {v : Nat} (hv : v < modulus cfg) : hi cfg v = 0 := Nat.div_eq_of_lt hv

theorem lo_of_lt {v : Nat} (hv : v < modulus cfg) : lo cfg v = v := Nat.mod_eq_of_lt hv

theorem hi_modulus (cfg : Config) : hi cfg (modulus cfg) = 1 := Nat.div_self (modulus_pos cfg)

theorem lo_modulus (cfg : Config) : lo cfg (modulus cfg) = 0 := Nat.mod_self (modulus cfg)

/-- Settles O3: division with remainder by `modulus`, and `lo_max < modulus` for the groups of the largest Word. -/
theorem digitGroupsSplitAndRecompose : Obligations.DigitGroupsSplitAndRecompose := by
  intro cfg _
  have hlast : modulus cfg - 1 < modulus cfg := Nat.sub_one_lt_of_lt (modulus_pos cfg)
  exact
    ⟨fun v => ⟨rfl, rfl, recompose_hi_lo cfg v, recompose_hi_lo cfg v, lo_lt_modulus cfg v, hi_le_hiMax⟩,
     fun h _ hl => ⟨hi_recompose h hl, lo_recompose h hl⟩,
     by simp [recompose], recompose_hiMax_loMax cfg,
     hi_of_lt (modulus_pos cfg), hi_of_lt hlast, hi_modulus cfg, hi_wordMax cfg,
     lo_of_lt (modulus_pos cfg), lo_of_lt hlast, lo_modulus cfg, lo_wordMax cfg⟩

end Sys2Proof.Machine

/-! The end of a step (R103, R105, R106, R108, R109): where each micro-operation leaves the cursor and what it answers;
that a run aborts at the first step that raises Fatal (R111, R196); and that the cursor does not wrap (R28). -/

namespace Sys2Proof.Machine

variable {s t : State} {i : Instr} {f : Fault}

/-! ## The cursor and the answer -/

/-- R100 stages 4 and 5: every completing micro-operation ends by setting the cursor and the answer, and what it did
before that left the parameters alone. -/
theorem exec_ends_with_setCursor (h : exec i s = .next t) :
    ∃ u : State, t = u.setCursor
        (if i = .insMc then symLookup s.symtab (hi s.cfg s.ins) else if i = .mc0 then 0 else s.mcAddr + 1)
        (if i = .stop then .halts else .continues) ∧
      u.cfg = s.cfg := by
  cases i with
  | dbRam => obtain ⟨-, -, rfl⟩ := exec_dbRam_eq_next.mp h; exact ⟨_, rfl, rfl⟩
  | ramDb => obtain ⟨-, -, rfl⟩ := exec_ramDb_eq_next.mp h; exact ⟨_, rfl, rfl⟩
  | reserved => obtain ⟨-, rfl⟩ := exec_reserved_eq_next.mp h; exact ⟨_, rfl, rfl⟩
  | murMc => obtain ⟨-, rfl⟩ := exec_murMc_eq_next.mp h; exact ⟨_, rfl, rfl⟩
  | iomap => obtain ⟨-, -, -, rfl⟩ := exec_iomap_eq_next.mp h; exact ⟨_, rfl, rfl⟩
  | if0PcInc => rw [exec_if0PcInc] at h; cases h; exact ⟨_, rfl, rfl⟩
  | _ => cases h; exact ⟨_, rfl, rfl⟩

/-- R28: the cursor after each micro-operation. -/
theorem exec_mcAddr (h : exec i s = .next t) :
    t.mcAddr =
      if i = .insMc then symLookup s.symtab (hi s.cfg s.ins) else if i = .mc0 then 0 else s.mcAddr + 1 := by
  obtain ⟨u, rfl, -⟩ := exec_ends_with_setCursor h
  rfl

/-- R39: the answer of each micro-operation. -/
theorem exec_answer (h : exec i s = .next t) : t.answer = if i = .stop then .halts else .continues := by
  obtain ⟨u, rfl, -⟩ := exec_ends_with_setCursor h
  rfl

/-- R37: no micro-operation changes the parameters. -/
theorem exec_cfg (h : exec i s = .next t) : t.cfg = s.cfg := by
  obtain ⟨u, rfl, hcfg⟩ := exec_ends_with_setCursor h
  exact hcfg

theorem step_cfg (h : step s = .next t) : t.cfg = s.cfg := by
  obtain ⟨-, -, i, -, hexec⟩ := step_eq_next.mp h
  exact exec_cfg hexec

/-! ## Jumping by symbol -/

theorem exec_insMc_of_bound {a : Nat} (h : cellFind (hi s.cfg s.ins) s.symtab = some a) :
    exec .insMc s = .next (s.setCursor a .continues) := by
  simp [symLookup, h]

theorem exec_insMc_of_absent (h : cellFind (hi s.cfg s.ins) s.symtab = none) :
    exec .insMc s = .next (s.setCursor 0 .continues) := by
  simp [symLookup, h]

/-- Settles O13: the equation of each micro-operation, `setCursor` being the update of the cursor and the answer. -/
theorem controlMicroOpsMoveTheCursor : Obligations.ControlMicroOpsMoveTheCursor := fun _ =>
  ⟨exec_nop, exec_insMc, fun _ hbound => exec_insMc_of_bound hbound, fun habsent => exec_insMc_of_absent habsent,
   exec_mc0⟩

/-! ## Where a run aborts -/

/-- R111, R196: by induction on the steps allowed.  The step that raises Fatal is the first one, or the run goes on
from the state after the first step and aborts there. -/
theorem runToHalt_eq_aborted (n : Nat) :
    runToHalt n s = .aborted f t ↔ ∃ m, m < n ∧ runToHalt m s = .unfinished t ∧ step t = .fault f := by
  induction n generalizing s with
  | zero => simp
  | succ n ih =>
    have hfirst : (runToHalt 0 s = .unfinished t ∧ step t = .fault f) ↔ step s = .fault f ∧ s = t :=
      ⟨fun ⟨hs, hfault⟩ => by cases hs; exact ⟨hfault, rfl⟩, fun ⟨hfault, hs⟩ => hs ▸ ⟨rfl, hfault⟩⟩
    rw [Nat.exists_lt_succ_left, hfirst]
    cases hstep : step s with
    | next u =>
      cases hanswer : u.answer with
      | continues => simp [runToHalt_continues _ hstep hanswer, ih]
      | halts => simp [runToHalt_halts _ hstep hanswer]
    | fault r => simp [runToHalt_fault _ hstep]
    | refused r => simp [runToHalt_refused _ hstep]

/-! ## The top of the store -/

/-- R101: the fetch check of a valid configuration. -/
theorem step_of_cursor_beyond_store (hv : s.cfg.Valid) (h : s.cfg.mcAddrMax < s.mcAddr) :
    step s = .fault (.mcAddrOutOfRange s.mcAddr) :=
  step_eq_fault_table.mpr ⟨hv, .inl ⟨h, rfl⟩⟩

/-- R28: the cursor does not wrap; a step that runs past the last cell is followed by Fatal. -/
theorem step_after_last_cell (h : step s = .next t) (htop : t.mcAddr = s.cfg.mcAddrMax + 1) :
    step t = .fault (.mcAddrOutOfRange (s.cfg.mcAddrMax + 1)) := by
  have hcfg : t.cfg = s.cfg := step_cfg h
  obtain ⟨hvalid, -⟩ := step_eq_next.mp h
  rw [← htop]
  exact step_of_cursor_beyond_store (hcfg ▸ hvalid) (by rw [hcfg, htop]; exact Nat.lt_succ_self _)

/-- Settles O26: the end of each micro-operation, the induction over runs, and the step past the last cell. -/
theorem cursorAfterEachMicroOp : Obligations.CursorAfterEachMicroOp :=
  ⟨fun _ _ _ h => ⟨exec_mcAddr h, exec_answer h⟩, fun n _ _ _ => runToHalt_eq_aborted n,
   fun _ _ h htop => step_after_last_cell h htop⟩

end Sys2Proof.Machine

/-! Moves between the registers and the buses (R117 to R121). -/

namespace Sys2Proof.Machine

/-- Settles O18: the equation of each micro-operation, read through the register updates; `lo` is the remainder by
`modulus` (R92), and `pc_ab` copies the whole of `program_counter`, where `ins_ab` and `ins_db` take the `lo` group. -/
theorem registerMovesCopyTheirSource : Obligations.RegisterMovesCopyTheirSource := fun _ =>
  ⟨exec_dbIns, exec_insAb, exec_pcAb, exec_accDb, exec_insDb⟩

end Sys2Proof.Machine

/-! Writes of the program counter (R131 to R133). -/

namespace Sys2Proof.Machine

variable {s : State}

/-- R132: the true branch is the whole of `pc_inc`. -/
theorem exec_if0PcInc_of_acc_eq_zero (h : s.acc = 0) : exec .if0PcInc s = exec .pcInc s := by
  rw [exec_if0PcInc, if_pos h, exec_pcInc]

/-- R132: on the false branch the program counter is written back unchanged, so only the cursor moves. -/
theorem exec_if0PcInc_of_acc_ne_zero (h : s.acc ≠ 0) :
    exec .if0PcInc s = .next (s.setCursor (s.mcAddr + 1) .continues) := by
  rw [exec_if0PcInc, if_neg h]
  rfl

/-- Settles O19: the equation of each micro-operation, read through the register updates, and for `if_0_pc_inc` the
equation of each branch; the sum is on natural numbers, with no clamp and no wrap, and `lo` is the remainder by
`modulus` (R92). -/
theorem programCounterMicroOps : Obligations.ProgramCounterMicroOps := fun _ =>
  ⟨exec_pcInc, fun hzero => (exec_if0PcInc_of_acc_eq_zero hzero).trans exec_pcInc,
   fun hnonzero => exec_if0PcInc_of_acc_ne_zero hnonzero, exec_insPc⟩

end Sys2Proof.Machine

/-! The accumulator micro-operations (R142 to R146, R148): the clamp of an integer is a natural number's minimum with
`word_max`, so each of them is read off from its exact result cut off at 0. -/

namespace Sys2Proof.Machine

variable {s : State}

/-! ## The clamp on natural numbers -/

/-- R95: cutting an integer off at 0 is `Int.toNat`, so what is left of the clamp is its upper bound. -/
theorem sat_eq_min (cfg : Config) (z : Int) : sat cfg z = min z.toNat (wordMax cfg) := by
  unfold sat
  split
  case isTrue hneg => simp [Int.toNat_of_nonpos (Int.le_of_lt hneg)]
  case isFalse hnonneg =>
    split
    case isTrue hbig => exact (Nat.min_eq_right (by omega)).symm
    case isFalse hsmall => exact (Nat.min_eq_left (by omega)).symm

/-- R141: the next state of every accumulator micro-operation, from the natural number `n` its exact result cuts off
to. -/
theorem accumulate_eq_min {z : Int} {n : Nat} (h : z.toNat = n) :
    accumulate s z = .next ((s.setAcc (min n (wordMax s.cfg))).setCursor (s.mcAddr + 1) .continues) := by
  rw [accumulate_eq, sat_eq_min, h]

/-! ## The micro-operations -/

theorem exec_acc0_eq_zero : exec .acc0 s = .next ((s.setAcc 0).setCursor (s.mcAddr + 1) .continues) := by
  rw [exec_acc0, accumulate_eq_min Int.toNat_zero, Nat.zero_min]

theorem exec_minus_eq_min :
    exec .minus s =
      .next ((s.setAcc (min (s.acc - s.dataBus) (wordMax s.cfg))).setCursor (s.mcAddr + 1) .continues) :=
  accumulate_eq_min (Int.toNat_sub ..)

/-- R144: a difference never passes an accumulator in range, so only the lower bound of the clamp is left. -/
theorem exec_minus_of_acc_in_range (h : s.acc ≤ wordMax s.cfg) :
    exec .minus s =
      .next ((s.setAcc (if s.dataBus ≤ s.acc then s.acc - s.dataBus else 0)).setCursor (s.mcAddr + 1) .continues) := by
  rw [exec_minus_eq_min, Nat.min_eq_left (Nat.le_trans (Nat.sub_le ..) h)]
  split
  case isTrue => rfl
  case isFalse hlt => rw [Nat.sub_eq_zero_of_le (Nat.le_of_not_le hlt)]

/-- Settles O20: the sums and differences are those of natural numbers, whose subtraction cuts off at 0 as the clamp
does; `accumulate_eq_min` gives the whole next state of each. -/
theorem accumulatorMicroOpsClamp : Obligations.AccumulatorMicroOpsClamp := fun _ =>
  ⟨exec_acc0_eq_zero, accumulate_eq_min (Int.toNat_natCast _), exec_minus_eq_min, exec_minus_of_acc_in_range,
   accumulate_eq_min (Int.toNat_natCast _), accumulate_eq_min (Int.pred_toNat _),
   accumulate_eq_min (Int.toNat_natCast _)⟩

end Sys2Proof.Machine

/-! Staging the microcode update register (R156, R158). -/

namespace Sys2Proof.Machine

/-- Settles O21: the equation of each micro-operation, read through the register updates; `lo` and `hi` are the remainder
and the quotient by `modulus` (R91, R92), and nothing compares them with a bound. -/
theorem stagingFillsTheUpdateRegister : Obligations.StagingFillsTheUpdateRegister := fun _ =>
  ⟨exec_insMur1, exec_insMur2⟩

end Sys2Proof.Machine

/-! Refusals and completion: the table of refusals (R7, R171, R183), and that each micro-operation completes exactly when
it is ready (decisions D3, D7, D8, D14). -/

namespace Sys2Proof.Machine

variable {s : State} {r : Refusal}

/-! ## The five micro-operations that can stop: three can be refused, two only raise Fatal -/

theorem exec_dbRam_eq_refused :
    exec .dbRam s = .refused r ↔
      s.addressBus ≤ s.cfg.loMax ∧ inDeviceWindow s s.addressBus = true ∧
        r = .deviceWindowNotModelled s.addressBus := by
  simp [exec, execDbRam, andThen_eq_refused, memWrite_eq_refused]

theorem exec_ramDb_eq_refused :
    exec .ramDb s = .refused r ↔
      s.addressBus ≤ s.cfg.loMax ∧ inDeviceWindow s s.addressBus = true ∧
        r = .deviceWindowNotModelled s.addressBus := by
  simp [exec, execRamDb, andThen_eq_refused, memRead_eq_refused]

/-- R170, R171: `iomap` is refused by its index read, or by the device entry that the index names. -/
theorem exec_iomap_eq_refused :
    exec .iomap s = .refused r ↔
      (lo s.cfg s.ins ≤ s.cfg.loMax ∧ inDeviceWindow s (lo s.cfg s.ins) = true ∧
        r = .deviceWindowNotModelled (lo s.cfg s.ins)) ∨
      (lo s.cfg s.ins ≤ s.cfg.loMax ∧ inDeviceWindow s (lo s.cfg s.ins) = false ∧
        s.ram.read (lo s.cfg s.ins) < s.cfg.deviceEntries.length ∧
        r = .deviceAttachNotModelled (s.ram.read (lo s.cfg s.ins))) := by
  simp only [exec, execIomap, andThen_eq_refused, memRead_eq_refused, memRead_eq_next]
  refine or_congr_right ⟨?_, ?_⟩
  · rintro ⟨idx, ⟨hreach, hwindow, rfl⟩, hlookup⟩
    split at hlookup
    · cases hlookup
    · next hentry =>
      obtain ⟨hnamed, -⟩ := List.getElem?_eq_some_iff.mp hentry
      exact ⟨hreach, hwindow, hnamed, (Host.Outcome.refused.inj hlookup).symm⟩
  · rintro ⟨hreach, hwindow, hnamed, rfl⟩
    exact ⟨_, ⟨hreach, hwindow, rfl⟩, by simp [List.getElem?_eq_getElem hnamed]⟩

/-- R107: the reserved row raises Fatal or is a `nop`. -/
theorem exec_reserved_ne_refused : exec .reserved s ≠ .refused r := by
  simp only [exec, execReserved]
  cases s.cfg.reserved6Policy <;> simp

theorem commitCode_ne_refused : commitCode s ≠ .refused r := by
  unfold commitCode
  split
  · exact mcWrite_ne_refused
  · simp

/-- R160: a commit that cannot write its code raises Fatal. -/
theorem exec_murMc_ne_refused : exec .murMc s ≠ .refused r := by
  simp [exec, execMurMc, andThen_eq_refused, commitCode_ne_refused]

/-! ## The table of refusals -/

/-- R171, R183: the table over every micro-operation; one that is not named in it is never refused. -/
theorem exec_eq_refused (i : Instr) :
    exec i s = .refused r ↔
      ((i = .dbRam ∨ i = .ramDb) ∧ s.addressBus ≤ s.cfg.loMax ∧ inDeviceWindow s s.addressBus = true ∧
        r = .deviceWindowNotModelled s.addressBus) ∨
      (i = .iomap ∧ lo s.cfg s.ins ≤ s.cfg.loMax ∧ inDeviceWindow s (lo s.cfg s.ins) = true ∧
        r = .deviceWindowNotModelled (lo s.cfg s.ins)) ∨
      (i = .iomap ∧ lo s.cfg s.ins ≤ s.cfg.loMax ∧ inDeviceWindow s (lo s.cfg s.ins) = false ∧
        s.ram.read (lo s.cfg s.ins) < s.cfg.deviceEntries.length ∧
        r = .deviceAttachNotModelled (s.ram.read (lo s.cfg s.ins))) := by
  cases i with
  | dbRam => simp [exec_dbRam_eq_refused]
  | ramDb => simp [exec_ramDb_eq_refused]
  | iomap => simp [exec_iomap_eq_refused]
  | reserved => simp [exec_reserved_ne_refused]
  | murMc => simp [exec_murMc_ne_refused]
  | if0PcInc => simp [exec_if0PcInc]
  | _ => simp

/-- R7: the fetch refuses an invalid configuration and nothing else, so in a valid one a refusal is that of the
micro-operation whose code the cell holds. -/
theorem step_eq_refused_table :
    step s = .refused r ↔
      (¬ s.cfg.Valid ∧ r = .invalidConfiguration) ∨
      (s.cfg.Valid ∧ s.mcAddr ≤ s.cfg.mcAddrMax ∧
        ∃ i, encode s.cfg i = s.microcode.read s.mcAddr ∧ exec i s = .refused r) := by
  rw [step_eq_refused]
  simp only [fetchInstr_eq_refused, fetchInstr_eq_next]
  by_cases hv : s.cfg.Valid
  · simp only [iff_true_intro hv, true_and, decode_eq_ok hv, and_assoc, exists_and_left]
  · simp [hv]

/-- Settles O11: the micro-operations' table and the step's. -/
theorem refusalsAreExactlyThese : Obligations.RefusalsAreExactlyThese :=
  ⟨fun i _ _ => exec_eq_refused i, fun _ _ => step_eq_refused_table⟩

/-! ## Completion -/

/-- Settles O12: for the five micro-operations that can stop, `Ready` is the condition that their inversion lemma puts
beside the next state; the others have a next state by their equation. -/
theorem everyMicroOpCompletesWhenReady : Obligations.EveryMicroOpCompletesWhenReady := by
  intro i s
  cases i with
  | dbRam => simp [exec_dbRam_eq_next, State.Ready]
  | ramDb => simp [exec_ramDb_eq_next, State.Ready]
  | reserved => simp [exec_reserved_eq_next, State.Ready]
  | murMc => simp [exec_murMc_eq_next, State.Ready]
  | iomap => simp [exec_iomap_eq_next, State.Ready]
  | if0PcInc => simp [exec_if0PcInc, State.Ready]
  | _ => simp [State.Ready]

end Sys2Proof.Machine

/-! The reserved code under each policy (R107, decision D3). -/

namespace Sys2Proof.Machine

variable {s : State}

/-- R107: rejected, the code stops the run with its own number and the cursor (R191, R195). -/
theorem exec_reserved_of_fatal (h : s.cfg.reserved6Policy = .fatal) :
    exec .reserved s = .fault (.unrecognisedMicroOp (encode s.cfg .reserved) s.mcAddr) :=
  exec_reserved_eq_fault.mpr ⟨h, rfl⟩

/-- R107: accepted, the code only moves the cursor on. -/
theorem exec_reserved_of_nop (h : s.cfg.reserved6Policy = .nop) :
    exec .reserved s = .next (s.setCursor (s.mcAddr + 1) .continues) :=
  exec_reserved_eq_next.mpr ⟨h, rfl⟩

/-- Settles O15: each policy picks one case of the inversion lemmas of `reserved`; under `nop` the next state is the one
that `exec_nop` gives. -/
theorem reservedCodeFollowsThePolicy : Obligations.ReservedCodeFollowsThePolicy :=
  ⟨rfl, fun _ => ⟨exec_reserved_of_fatal, fun hnop =>
    ⟨exec_reserved_of_nop hnop, (exec_reserved_of_nop hnop).trans exec_nop.symm⟩⟩⟩

end Sys2Proof.Machine

/-! Decoding and encoding (R71 to R73, R78): a cell decodes to the micro-operation whose code it holds; the default table
(decision D2); the mnemonics. -/

namespace Sys2Proof

/-- Settles O5: `decode_eq_ok` read in both directions, and `decode_eq_error`. -/
theorem decodeAndEncodeAgree : Obligations.DecodeAndEncodeAgree := fun _ hv =>
  ⟨fun _ => (decode_eq_ok hv).mpr rfl, fun _ _ hdecode => (decode_eq_ok hv).mp hdecode, fun _ _ => decode_eq_error⟩

theorem Config.reference_valid : Config.reference.Valid := by decide

theorem encode_reference_lt (i : Instr) : encode .reference i < 25 := by cases i <;> decide

/-- Settles O6: each code is its row's encoding, and no encoding reaches 25. -/
theorem defaultCodesDecodeToTheirRows : Obligations.DefaultCodesDecodeToTheirRows := by
  refine ⟨fun c i hrow => (decode_eq_ok Config.reference_valid).mpr ?_, fun c hc => ?_⟩
  · cases i <;> simpa [encode, Config.reference, CodeTable.code, defaultCodeOf, eq_comm] using hrow
  · have hne : ∀ i, encode .reference i ≠ c := fun i => Nat.ne_of_lt (Nat.lt_of_lt_of_le (encode_reference_lt i) hc)
    exact decode_eq_error.mpr ⟨rfl, hne⟩

/-- R78: the search by name finds the micro-operation that has the name, since no two have one. -/
theorem Instr.ofMnemonic_of_mnemonic {i : Instr} {name : String} (h : i.mnemonic = some name) :
    Instr.ofMnemonic name = some i := by
  have hall : ∀ j ∈ Instr.all, ∀ n ∈ j.mnemonic, Instr.ofMnemonic n = some j := by decide
  exact hall i (Instr.mem_all i) name h

theorem Instr.mnemonic_of_ofMnemonic {i : Instr} {name : String} (h : Instr.ofMnemonic name = some i) :
    i.mnemonic = some name := by
  simpa using List.find?_some h

/-- Settles O7: the table by its rows, and the two directions of the search by name. -/
theorem mnemonicsNameTheMicroOps : Obligations.MnemonicsNameTheMicroOps := by
  refine ⟨fun i name hrow => ?_, fun _ _ => ⟨Instr.ofMnemonic_of_mnemonic, Instr.mnemonic_of_ofMnemonic⟩,
    fun i hi => ?_, rfl⟩
  · cases i with
    | reserved => simp at hrow
    | _ => simpa [Instr.mnemonic, eq_comm] using hrow
  · cases i with
    | reserved => exact absurd rfl hi
    | _ => exact ⟨_, rfl⟩

end Sys2Proof

/-! What a completing micro-operation leaves behind, register by register: one function for each piece of state, and that
they make up the next state.  Which pieces a micro-operation reads and writes can be seen from them. -/

namespace Sys2Proof.Machine

variable {s t : State} {i : Instr}

/-! ## The next value of each piece of state -/

/-- R21. -/
def nextAddressBus (i : Instr) (s : State) : Nat :=
  match i with
  | .insAb => lo s.cfg s.ins
  | .pcAb => s.programCounter
  | _ => s.addressBus

/-- R22. -/
def nextDataBus (i : Instr) (s : State) : Nat :=
  match i with
  | .ramDb => s.ram.read s.addressBus
  | .accDb => s.acc
  | .insDb => lo s.cfg s.ins
  | _ => s.dataBus

/-- R23. -/
def nextIns (i : Instr) (s : State) : Nat :=
  match i with
  | .dbIns => s.dataBus
  | _ => s.ins

/-- R24. -/
def nextProgramCounter (i : Instr) (s : State) : Nat :=
  match i with
  | .pcInc => s.programCounter + 1
  | .if0PcInc => if s.acc = 0 then s.programCounter + 1 else s.programCounter
  | .insPc => lo s.cfg s.ins
  | _ => s.programCounter

/-- R25, R141: the clamp of each exact result. -/
def nextAcc (i : Instr) (s : State) : Nat :=
  match i with
  | .acc0 => sat s.cfg 0
  | .plus => sat s.cfg (s.acc + s.dataBus)
  | .minus => sat s.cfg (s.acc - s.dataBus)
  | .accInc => sat s.cfg (s.acc + 1)
  | .accDec => sat s.cfg (s.acc - 1)
  | .dbAcc => sat s.cfg s.dataBus
  | _ => s.acc

/-- R27, R28. -/
def nextCursor (i : Instr) (s : State) : Nat :=
  match i with
  | .insMc => symLookup s.symtab (hi s.cfg s.ins)
  | .mc0 => 0
  | _ => s.mcAddr + 1

/-- R30. -/
def nextRam (i : Instr) (s : State) : Memory :=
  match i with
  | .dbRam => s.ram.write s.addressBus s.dataBus
  | _ => s.ram

/-- R31. -/
def nextMicrocode (i : Instr) (s : State) : Memory :=
  match i with
  | .murMc => if s.mur.microOp = s.cfg.loMax then s.microcode else s.microcode.write s.mur.address s.mur.microOp
  | _ => s.microcode

/-- R34. -/
def nextSymtab (i : Instr) (s : State) : SymbolTable :=
  match i with
  | .murMc => if s.mur.symbol = 0 then s.symtab else symInsert s.symtab s.mur.symbol s.mur.address
  | _ => s.symtab

/-- R35. -/
def nextMur (i : Instr) (s : State) : UpdateRegister :=
  match i with
  | .insMur1 => { s.mur with address := lo s.cfg s.ins }
  | .insMur2 => { s.mur with microOp := lo s.cfg s.ins, symbol := hi s.cfg s.ins }
  | .murMc => .zero
  | _ => s.mur

/-- R39. -/
def nextAnswer (i : Instr) : Answer :=
  match i with
  | .stop => .halts
  | _ => .continues

/-- The state a micro-operation leads to when it completes. -/
def State.after (s : State) (i : Instr) : State where
  cfg := s.cfg
  addressBus := nextAddressBus i s
  dataBus := nextDataBus i s
  ins := nextIns i s
  programCounter := nextProgramCounter i s
  acc := nextAcc i s
  mcAddr := nextCursor i s
  ram := nextRam i s
  microcode := nextMicrocode i s
  symtab := nextSymtab i s
  mur := nextMur i s
  deviceMappings := s.deviceMappings
  answer := nextAnswer i

theorem next_eq_next_iff {u : State} : (Host.Outcome.next u : Result State) = .next t ↔ True ∧ t = u := by
  simp [eq_comm]

/-- A micro-operation answers a next state exactly when it is ready, and then it is the one the functions above give. -/
theorem exec_eq_next : exec i s = .next t ↔ s.Ready i ∧ t = s.after i := by
  cases i with
  | dbRam => exact exec_dbRam_eq_next.trans and_assoc.symm
  | ramDb => exact exec_ramDb_eq_next.trans and_assoc.symm
  | reserved => exact exec_reserved_eq_next
  | murMc => exact exec_murMc_eq_next
  | iomap =>
    rw [exec_iomap_eq_next, State.Ready, and_assoc, and_assoc]
    rfl
  | if0PcInc =>
    rw [exec_if0PcInc]
    exact next_eq_next_iff
  | _ => exact next_eq_next_iff

theorem step_eq_next_after :
    step s = .next t ↔
      s.cfg.Valid ∧ s.mcAddr ≤ s.cfg.mcAddrMax ∧
        ∃ i, encode s.cfg i = s.microcode.read s.mcAddr ∧ s.Ready i ∧ t = s.after i := by
  rw [step_eq_next]
  exact and_congr_right fun hv => by simp only [decode_eq_ok hv, exec_eq_next]

/-- R100: when the cell at the cursor holds a micro-operation's code, the step is that micro-operation. -/
theorem step_eq_exec (hv : s.cfg.Valid) (hm : s.mcAddr ≤ s.cfg.mcAddrMax)
    (hdecode : decode s.cfg (s.microcode.read s.mcAddr) = .ok i) : step s = exec i s :=
  step_of_fetch (fetchInstr_eq_next.mpr ⟨hv, hm, hdecode⟩)

/-! ## Who writes what -/

theorem exec_addressBus_cases (h : exec i s = .next t) :
    t.addressBus = s.addressBus ∨ i = .insAb ∨ i = .pcAb := by
  obtain ⟨-, rfl⟩ := exec_eq_next.mp h
  cases i with
  | insAb => exact .inr (.inl rfl)
  | pcAb => exact .inr (.inr rfl)
  | _ => exact .inl rfl

theorem exec_dataBus_cases (h : exec i s = .next t) :
    t.dataBus = s.dataBus ∨
      (i = .ramDb ∧ s.addressBus ≤ s.cfg.loMax ∧ t.dataBus = s.ram.read s.addressBus) ∨
      (i = .accDb ∧ t.dataBus = s.acc) ∨ (i = .insDb ∧ t.dataBus = lo s.cfg s.ins) := by
  obtain ⟨hready, rfl⟩ := exec_eq_next.mp h
  cases i with
  | ramDb => exact .inr (.inl ⟨rfl, hready.1, rfl⟩)
  | accDb => exact .inr (.inr (.inl ⟨rfl, rfl⟩))
  | insDb => exact .inr (.inr (.inr ⟨rfl, rfl⟩))
  | _ => exact .inl rfl

theorem exec_ins_cases (h : exec i s = .next t) : t.ins = s.ins ∨ (i = .dbIns ∧ t.ins = s.dataBus) := by
  obtain ⟨-, rfl⟩ := exec_eq_next.mp h
  cases i with
  | dbIns => exact .inr ⟨rfl, rfl⟩
  | _ => exact .inl rfl

theorem exec_programCounter_cases (h : exec i s = .next t) :
    t.programCounter = s.programCounter ∨ i = .pcInc ∨ i = .if0PcInc ∨ i = .insPc := by
  obtain ⟨-, rfl⟩ := exec_eq_next.mp h
  cases i with
  | pcInc => exact .inr (.inl rfl)
  | if0PcInc => exact .inr (.inr (.inl rfl))
  | insPc => exact .inr (.inr (.inr rfl))
  | _ => exact .inl rfl

/-- R140, R141: the accumulator is kept, or holds a clamped result. -/
theorem exec_acc_cases (h : exec i s = .next t) :
    t.acc = s.acc ∨
      ((i = .acc0 ∨ i = .plus ∨ i = .minus ∨ i = .accInc ∨ i = .accDec ∨ i = .dbAcc) ∧
        ∃ z, t.acc = sat s.cfg z) := by
  obtain ⟨-, rfl⟩ := exec_eq_next.mp h
  cases i with
  | acc0 => exact .inr ⟨by simp, 0, rfl⟩
  | plus => exact .inr ⟨by simp, s.acc + s.dataBus, rfl⟩
  | minus => exact .inr ⟨by simp, s.acc - s.dataBus, rfl⟩
  | accInc => exact .inr ⟨by simp, s.acc + 1, rfl⟩
  | accDec => exact .inr ⟨by simp, s.acc - 1, rfl⟩
  | dbAcc => exact .inr ⟨by simp, s.dataBus, rfl⟩
  | _ => exact .inl rfl

theorem exec_ram_cases (h : exec i s = .next t) :
    t.ram = s.ram ∨
      (i = .dbRam ∧ s.addressBus ≤ s.cfg.loMax ∧ t.ram = s.ram.write s.addressBus s.dataBus) := by
  obtain ⟨hready, rfl⟩ := exec_eq_next.mp h
  cases i with
  | dbRam => exact .inr ⟨rfl, hready.1, rfl⟩
  | _ => exact .inl rfl

/-- R155, R159: the microcode store is kept, or a commit writes a code other than the sentinel into it. -/
theorem exec_microcode_cases (h : exec i s = .next t) :
    t.microcode = s.microcode ∨
      (i = .murMc ∧ s.mur.microOp ≠ s.cfg.loMax ∧ s.mur.address ≤ s.cfg.mcAddrMax ∧
        t.microcode = s.microcode.write s.mur.address s.mur.microOp) := by
  obtain ⟨hready, rfl⟩ := exec_eq_next.mp h
  cases i with
  | murMc =>
    by_cases hdue : s.mur.microOp = s.cfg.loMax
    · exact .inl (if_pos hdue)
    · exact .inr ⟨rfl, hdue, hready hdue, if_neg hdue⟩
  | _ => exact .inl rfl

theorem exec_mur_cases (h : exec i s = .next t) :
    t.mur = s.mur ∨
      (i = .insMur1 ∧ t.mur = { s.mur with address := lo s.cfg s.ins }) ∨
      (i = .insMur2 ∧ t.mur = { s.mur with microOp := lo s.cfg s.ins, symbol := hi s.cfg s.ins }) ∨
      (i = .murMc ∧ t.mur = .zero) := by
  obtain ⟨-, rfl⟩ := exec_eq_next.mp h
  cases i with
  | insMur1 => exact .inr (.inl ⟨rfl, rfl⟩)
  | insMur2 => exact .inr (.inr (.inl ⟨rfl, rfl⟩))
  | murMc => exact .inr (.inr (.inr ⟨rfl, rfl⟩))
  | _ => exact .inl rfl

/-- R36, R171: no micro-operation maps a device. -/
theorem exec_deviceMappings (h : exec i s = .next t) : t.deviceMappings = s.deviceMappings := by
  obtain ⟨-, rfl⟩ := exec_eq_next.mp h
  rfl

/-- Settles O24: each piece of state that is not kept leaves the micro-operations its lemma names. -/
theorem stateIsWrittenOnlyByItsMicroOps : Obligations.StateIsWrittenOnlyByItsMicroOps := fun _ _ _ h =>
  ⟨(exec_addressBus_cases h).resolve_left,
   fun hne => ((exec_dataBus_cases h).resolve_left hne).imp And.left (Or.imp And.left And.left),
   fun hne => ((exec_ins_cases h).resolve_left hne).1,
   (exec_programCounter_cases h).resolve_left,
   fun hne => ((exec_acc_cases h).resolve_left hne).1,
   fun hne => ((exec_ram_cases h).resolve_left hne).1,
   fun hne => ((exec_microcode_cases h).resolve_left hne).1,
   fun hne => ((exec_symtab_cases h).resolve_left hne).1,
   fun hne => ((exec_mur_cases h).resolve_left hne).imp And.left (Or.imp And.left And.left),
   exec_cfg h, exec_deviceMappings h⟩

/-- R58: the one RAM cell a completing micro-operation can change. -/
theorem exec_ram_read_other (h : exec i s = .next t) {a : Nat} (ha : a ≠ s.addressBus) :
    t.ram.read a = s.ram.read a := by
  rcases exec_ram_cases h with hkeep | ⟨-, -, hwrite⟩
  · rw [hkeep]
  · rw [hwrite, Memory.read_write_other ha]

theorem exec_microcode_read_other (h : exec i s = .next t) {a : Nat} (ha : a ≠ s.mur.address) :
    t.microcode.read a = s.microcode.read a := by
  rcases exec_microcode_cases h with hkeep | ⟨-, -, -, hwrite⟩
  · rw [hkeep]
  · rw [hwrite, Memory.read_write_other ha]

theorem exec_symtab_find_other (h : exec i s = .next t) {k : Nat} (hk : k ≠ s.mur.symbol) :
    cellFind k t.symtab = cellFind k s.symtab := by
  rcases exec_symtab_cases h with hkeep | ⟨-, -, hbind⟩
  · rw [hkeep]
  · rw [hbind, cellFind_symInsert_other hk]

/-- Settles O25: the three stores are kept or written at one address. -/
theorem aStepChangesOnlyTheAddressedCells : Obligations.AStepChangesOnlyTheAddressedCells := by
  intro s t h
  obtain ⟨-, -, i, -, hexec⟩ := step_eq_next.mp h
  exact ⟨fun _ => exec_ram_read_other hexec, fun _ => exec_microcode_read_other hexec,
    fun _ => exec_symtab_find_other hexec⟩

end Sys2Proof.Machine

/-! The invariants: values in range (R26), the well-formed state (R7, R26, R30, R31, R35, R36, R157), and runs. -/

namespace Sys2Proof.Machine

variable {s t : State} {i : Instr}

/-! ## Values in range (R26) -/

theorem sat_le_wordMax (cfg : Config) (z : Int) : sat cfg z ≤ wordMax cfg := by
  rw [sat_eq_min]
  exact Nat.min_le_right ..

theorem lo_le (cfg : Config) (v : Nat) : lo cfg v ≤ v := Nat.mod_le ..

/-- R26: a value that a micro-operation moves was in range already, and one that it computes is clamped. -/
theorem exec_inRange (h : exec i s = .next t) (hs : s.InRange) : t.InRange where
  dataBus := by
    rw [exec_cfg h]
    rcases exec_dataBus_cases h with hkeep | ⟨-, ha, hload⟩ | ⟨-, hacc⟩ | ⟨-, hins⟩
    · exact hkeep ▸ hs.dataBus
    · exact hload ▸ hs.ram _ ha
    · exact hacc ▸ hs.acc
    · exact hins ▸ Nat.le_trans (lo_le ..) hs.ins
  ins := by
    rw [exec_cfg h]
    rcases exec_ins_cases h with hkeep | ⟨-, hload⟩
    · exact hkeep ▸ hs.ins
    · exact hload ▸ hs.dataBus
  acc := by
    rw [exec_cfg h]
    rcases exec_acc_cases h with hkeep | ⟨-, z, hclamp⟩
    · exact hkeep ▸ hs.acc
    · exact hclamp ▸ sat_le_wordMax ..
  ram := by
    rw [exec_cfg h]
    intro a ha
    rcases exec_ram_cases h with hkeep | ⟨-, -, hwrite⟩
    · exact hkeep ▸ hs.ram a ha
    · rw [hwrite, Memory.read_write]
      split
      · exact hs.dataBus
      · exact hs.ram a ha

/-- Settles O29: the range of a step's values, and the upper group of a value in range. -/
theorem valuesStayWithinWordMax : Obligations.ValuesStayWithinWordMax := by
  intro s t hs h
  obtain ⟨-, -, i, -, hexec⟩ := step_eq_next.mp h
  have ht : t.InRange := exec_inRange hexec hs
  exact ⟨ht, hi_le_hiMax ht.ins, hi_le_hiMax ht.acc, hi_le_hiMax hs.ins, hi_le_hiMax hs.acc⟩

/-! ## The well-formed state -/

/-- R54, R57: a write inside an address range lists no cell outside it. -/
theorem Memory.write_within {m : Memory} {bound a : Nat} (hm : ∀ c ∈ m, c.1 ≤ bound) (ha : a ≤ bound) (v : Nat) :
    ∀ c ∈ m.write a v, c.1 ≤ bound := by
  intro c hc
  rcases Memory.mem_write hc with rfl | hc
  · exact ha
  · exact hm c hc

theorem exec_ram_wf (h : exec i s = .next t) (hs : s.ram.wf) : t.ram.wf := by
  rcases exec_ram_cases h with hkeep | ⟨-, -, hwrite⟩
  · rwa [hkeep]
  · rw [hwrite]
    exact Memory.write_wf hs ..

theorem exec_ram_within (h : exec i s = .next t) (hs : ∀ c ∈ s.ram, c.1 ≤ s.cfg.loMax) :
    ∀ c ∈ t.ram, c.1 ≤ s.cfg.loMax := by
  rcases exec_ram_cases h with hkeep | ⟨-, ha, hwrite⟩
  · rwa [hkeep]
  · rw [hwrite]
    exact Memory.write_within hs ha _

theorem exec_microcode_wf (h : exec i s = .next t) (hs : s.microcode.wf) : t.microcode.wf := by
  rcases exec_microcode_cases h with hkeep | ⟨-, -, -, hwrite⟩
  · rwa [hkeep]
  · rw [hwrite]
    exact Memory.write_wf hs ..

theorem exec_microcode_within (h : exec i s = .next t) (hs : ∀ c ∈ s.microcode, c.1 ≤ s.cfg.mcAddrMax) :
    ∀ c ∈ t.microcode, c.1 ≤ s.cfg.mcAddrMax := by
  rcases exec_microcode_cases h with hkeep | ⟨-, -, ha, hwrite⟩
  · rwa [hkeep]
  · rw [hwrite]
    exact Memory.write_within hs ha _

theorem exec_symtab_wf (h : exec i s = .next t) (hs : s.symtab.wf) : t.symtab.wf := by
  rcases exec_symtab_cases h with hkeep | ⟨-, -, hbind⟩
  · rwa [hkeep]
  · rw [hbind]
    exact symInsert_wf hs ..

/-- R35, R157: the update register's slots fit the digit groups they are staged from. -/
structure UpdateRegister.Fits (r : UpdateRegister) (cfg : Config) : Prop where
  address : r.address < modulus cfg
  microOp : r.microOp < modulus cfg
  symbol : r.symbol ≤ cfg.hiMax

theorem UpdateRegister.zero_fits (cfg : Config) : UpdateRegister.zero.Fits cfg :=
  ⟨modulus_pos cfg, modulus_pos cfg, Nat.zero_le _⟩

/-- R157: staging takes a digit group of a Word in range, and a commit zeroes the register. -/
theorem exec_mur_fits (h : exec i s = .next t) (hins : s.ins ≤ wordMax s.cfg) (hs : s.mur.Fits s.cfg) :
    t.mur.Fits s.cfg := by
  rcases exec_mur_cases h with hkeep | ⟨-, hstage⟩ | ⟨-, hstage⟩ | ⟨-, hzero⟩
  · rwa [hkeep]
  · rw [hstage]
    exact ⟨lo_lt_modulus .., hs.microOp, hs.symbol⟩
  · rw [hstage]
    exact ⟨hs.address, lo_lt_modulus .., hi_le_hiMax hins⟩
  · rw [hzero]
    exact UpdateRegister.zero_fits _

theorem State.Inv.mur_fits (hs : s.Inv) : s.mur.Fits s.cfg := ⟨hs.murAddress, hs.murMicroOp, hs.murSymbol⟩

theorem exec_inv (h : exec i s = .next t) (hs : s.Inv) : t.Inv := by
  have hcfg : t.cfg = s.cfg := exec_cfg h
  have hmur : t.mur.Fits t.cfg := hcfg ▸ exec_mur_fits h hs.range.ins hs.mur_fits
  exact
    { valid := hcfg ▸ hs.valid
      ramWf := exec_ram_wf h hs.ramWf
      ramSize := hcfg ▸ exec_ram_within h hs.ramSize
      microcodeWf := exec_microcode_wf h hs.microcodeWf
      microcodeSize := hcfg ▸ exec_microcode_within h hs.microcodeSize
      symtabWf := exec_symtab_wf h hs.symtabWf
      range := exec_inRange h hs.range
      murAddress := hmur.address
      murMicroOp := hmur.microOp
      murSymbol := hmur.symbol
      noMappings := (exec_deviceMappings h).trans hs.noMappings }

theorem step_inv (h : step s = .next t) (hs : s.Inv) : t.Inv := by
  obtain ⟨-, -, i, -, hexec⟩ := step_eq_next.mp h
  exact exec_inv hexec hs

/-- Settles O30: every micro-operation keeps each clause of the invariant. -/
theorem everyStepKeepsTheStateWellFormed : Obligations.EveryStepKeepsTheStateWellFormed := fun _ _ hs h =>
  step_inv h hs

/-! ## Runs -/

/-- What holds at the start of a run and is kept by every step holds where the run ends. -/
theorem runToHalt_state_induction {P : State → Prop} (hstep : ∀ u v, step u = .next v → P u → P v) (n : Nat)
    (hs : P s) : P (runToHalt n s).state := by
  induction n generalizing s with
  | zero => exact hs
  | succ n ih =>
    cases h : step s with
    | next t =>
      have ht : P t := hstep s t h hs
      cases hanswer : t.answer with
      | continues =>
        rw [runToHalt_continues n h hanswer]
        exact ih ht
      | halts =>
        rw [runToHalt_halts n h hanswer]
        exact ht
    | fault f =>
      rw [runToHalt_fault n h]
      exact hs
    | refused r =>
      rw [runToHalt_refused n h]
      exact hs

/-- R111: the step that ended a run. -/
def RunEnd.EndedByStep : RunEnd → Prop
  | .halted t => ∃ u, step u = .next t ∧ t.answer = .halts
  | .aborted f t => step t = .fault f
  | .refused r t => step t = .refused r
  | .unfinished _ => True

theorem runToHalt_endedByStep (n : Nat) (s : State) : (runToHalt n s).EndedByStep := by
  induction n generalizing s with
  | zero => trivial
  | succ n ih =>
    cases h : step s with
    | next t =>
      cases hanswer : t.answer with
      | continues =>
        rw [runToHalt_continues n h hanswer]
        exact ih t
      | halts =>
        rw [runToHalt_halts n h hanswer]
        exact ⟨s, h, hanswer⟩
    | fault f =>
      rw [runToHalt_fault n h]
      exact h
    | refused r =>
      rw [runToHalt_refused n h]
      exact h

/-- R171: from a well-formed state only an existing device entry is refused, since no address is in a window. -/
theorem step_refused_of_inv {r : Refusal} (hs : s.Inv) (h : step s = .refused r) :
    ∃ idx, r = .deviceAttachNotModelled idx ∧ idx < s.cfg.deviceEntries.length := by
  rcases step_eq_refused_table.mp h with ⟨hinvalid, -⟩ | ⟨-, -, i, -, hexec⟩
  · exact absurd hs.valid hinvalid
  · have hoff : ∀ a, inDeviceWindow s a = false := inDeviceWindow_of_noMappings hs.noMappings
    rcases (exec_eq_refused i).mp hexec with ⟨-, -, hin, -⟩ | ⟨-, -, hin, -⟩ | ⟨-, -, -, hnamed, hr⟩
    · simp [hoff] at hin
    · simp [hoff] at hin
    · exact ⟨_, hr, hnamed⟩

/-- Settles O31: the invariant and the configuration by induction over the run; a refused run ends in the state whose step
is refused, which is well formed. -/
theorem runsStayWellFormed : Obligations.RunsStayWellFormed := by
  intro n s hs
  obtain ⟨hinv, hcfg⟩ : (runToHalt n s).state.Inv ∧ (runToHalt n s).state.cfg = s.cfg :=
    runToHalt_state_induction (P := fun u => u.Inv ∧ u.cfg = s.cfg)
      (fun _ _ h hu => ⟨step_inv h hu.1, (step_cfg h).trans hu.2⟩) n ⟨hs, rfl⟩
  refine ⟨hinv, hcfg, fun r t hrefused => ?_⟩
  have hended : (runToHalt n s).EndedByStep := runToHalt_endedByStep n s
  rw [hrefused] at hinv hcfg hended
  obtain ⟨idx, hr, hnamed⟩ := step_refused_of_inv hinv hended
  exact ⟨idx, hr, by rwa [← hcfg]⟩

end Sys2Proof.Machine

/-! Words (R90, R94, R95): the lower bound of the digit count, its uniqueness, and what they say of `modulus`. -/

namespace Sys2Proof.Machine

variable {cfg : Config}

theorem ndigitsUpTo_pos (fuel n : Nat) : 0 < ndigitsUpTo fuel n := by
  cases fuel with
  | zero => exact Nat.one_pos
  | succ fuel =>
    rw [ndigitsUpTo]
    split
    · exact Nat.one_pos
    · exact Nat.succ_pos _

theorem ndigits_pos (n : Nat) : 0 < ndigits n := ndigitsUpTo_pos n n

theorem ten_pow_ndigitsUpTo_le {fuel n : Nat} (h : n ≤ fuel) (hn : 1 ≤ n) : 10 ^ ndigitsUpTo fuel n ≤ 10 * n := by
  induction fuel generalizing n with
  | zero => omega
  | succ fuel ih =>
    rw [ndigitsUpTo]
    split
    case isTrue => omega
    case isFalse =>
      have htail : 10 ^ ndigitsUpTo fuel (n / 10) ≤ 10 * (n / 10) := ih (by omega) (by omega)
      rw [Nat.pow_succ]
      omega

/-- R94: the lower bound of the digit count, in the form that R90's bound has. -/
theorem ten_pow_ndigits_le {n : Nat} (h : 1 ≤ n) : 10 ^ ndigits n ≤ 10 * n :=
  ten_pow_ndigitsUpTo_le (Nat.le_refl n) h

theorem ten_pow_pred_ndigits_le {n : Nat} (h : 1 ≤ n) : 10 ^ (ndigits n - 1) ≤ n := by
  have hbound : 10 ^ (ndigits n - 1) * 10 ≤ 10 * n := by
    rw [Nat.pow_pred_mul (ndigits_pos n)]
    exact ten_pow_ndigits_le h
  omega

/-- R94: no other number of digits has both bounds, since powers of ten rise. -/
theorem eq_ndigits {n k : Nat} (hn : 1 ≤ n) (hk : 1 ≤ k) (hlow : 10 ^ (k - 1) ≤ n) (hhigh : n < 10 ^ k) :
    k = ndigits n := by
  have hle : k - 1 < ndigits n :=
    (Nat.pow_lt_pow_iff_right (by decide)).mp (Nat.lt_of_le_of_lt hlow (lt_ten_pow_ndigits n))
  have hge : ndigits n - 1 < k :=
    (Nat.pow_lt_pow_iff_right (by decide)).mp (Nat.lt_of_le_of_lt (ten_pow_pred_ndigits_le hn) hhigh)
  omega

/-- Settles O1: the two bounds, each by induction on the divisions by ten, and the uniqueness that follows from them. -/
theorem digitCountIsTheDecimalLength : Obligations.DigitCountIsTheDecimalLength :=
  ⟨fun n hn =>
    ⟨ndigits_pos n, ten_pow_pred_ndigits_le hn, lt_ten_pow_ndigits n, fun _ => eq_ndigits hn⟩,
   by decide⟩

/-- R90: the digit count's lower bound, at `lo_max`. -/
theorem modulus_le_ten_mul_loMax (h : 1 ≤ cfg.loMax) : modulus cfg ≤ 10 * cfg.loMax := ten_pow_ndigits_le h

theorem ten_le_modulus (cfg : Config) : 10 ≤ modulus cfg :=
  Nat.le_pow (ndigits_pos cfg.loMax)

theorem modulus_of_loMax {l m : Nat} (h : cfg.loMax = l) (hm : 10 ^ ndigits l = m) : modulus cfg = m := by
  rw [modulus, h, hm]

/-- Settles O2: the bounds of the digit count of `lo_max`; a step keeps the configuration, and refuses one whose
`lo_max` is 0. -/
theorem modulusIsThePowerOfTenAboveLoMax : Obligations.ModulusIsThePowerOfTenAboveLoMax :=
  ⟨fun cfg hlo => ⟨rfl, ten_le_modulus cfg, loMax_lt_modulus cfg, modulus_le_ten_mul_loMax hlo⟩,
   fun _ =>
    ⟨(modulus_of_loMax · (by decide)), (modulus_of_loMax · (by decide)), (modulus_of_loMax · (by decide)),
     (modulus_of_loMax · (by decide)), (modulus_of_loMax · (by decide)), (modulus_of_loMax · (by decide))⟩,
   fun _ _ h => congrArg modulus (step_cfg h),
   fun _ hzero => step_eq_refused_table.mpr (.inl ⟨fun hvalid => Nat.one_le_iff_ne_zero.mp hvalid.1 hzero, rfl⟩)⟩

/-- Settles O4: the clamp is the minimum of the integer cut off at 0 and `word_max` (`sat_eq_min`). -/
theorem saturationClampsIntegers : Obligations.SaturationClampsIntegers := by
  intro cfg z
  rw [sat_eq_min]
  omega

end Sys2Proof.Machine

/-! The micro-operations that reach a store, and the reads that follow (R58, R63, R115, R116, R122, R159 to R163, R170,
R232). -/

namespace Sys2Proof.Machine

variable {s t : State} {i : Instr}

/-! ## RAM -/

/-- Settles O16: the completing case of `db_ram` and its write, then its fault and its refusal. -/
theorem dbRamStoresTheDataBus : Obligations.DbRamStoresTheDataBus := fun _ =>
  ⟨fun ha hw => ⟨_, exec_dbRam_eq_next.mpr ⟨ha, hw, rfl⟩, Memory.read_write_same .., fun _ hb =>
      Memory.read_write_other hb .., rfl⟩,
   fun ha => exec_dbRam_eq_fault.mpr ⟨ha, rfl⟩, fun ha hw => exec_dbRam_eq_refused.mpr ⟨ha, hw, rfl⟩⟩

/-- Settles O17: the completing case of `ram_db`, its fault and its refusal. -/
theorem ramDbLoadsTheDataBus : Obligations.RamDbLoadsTheDataBus := fun _ =>
  ⟨fun ha hw => exec_ramDb_eq_next.mpr ⟨ha, hw, rfl⟩, fun ha => exec_ramDb_eq_fault.mpr ⟨ha, rfl⟩,
   fun ha hw => exec_ramDb_eq_refused.mpr ⟨ha, hw, rfl⟩⟩

/-- Settles O35: the write keeps the address and the device windows, so the read completes and finds the Word. -/
theorem readAfterWriteReturnsTheWord : Obligations.ReadAfterWriteReturnsTheWord := by
  intro s t h
  obtain ⟨ha, hw, rfl⟩ := exec_dbRam_eq_next.mp h
  exact ⟨_, exec_ramDb_eq_next.mpr ⟨ha, hw, rfl⟩, Memory.read_write_same .., rfl, rfl⟩

/-- R122: with no device mapped a load through `lo(ins)` completes. -/
theorem exec_ramDb_of_noMappings (h : s.deviceMappings = []) (ha : s.addressBus ≤ s.cfg.loMax) :
    exec .ramDb s = .next ((s.setDataBus (s.ram.read s.addressBus)).setCursor (s.mcAddr + 1) .continues) :=
  exec_ramDb_eq_next.mpr ⟨ha, inDeviceWindow_of_noMappings h _, rfl⟩

/-- Settles O38: the five micro-operations in turn; only the two loads have conditions. -/
theorem indirectLoadGoesThroughThePointer : Obligations.IndirectLoadGoesThroughThePointer := fun _ hmap hptr htarget =>
  ⟨_, _, _, _, _, exec_insAb, exec_ramDb_of_noMappings hmap hptr, exec_dbIns, exec_insAb,
    exec_ramDb_of_noMappings hmap htarget, rfl, rfl, rfl, rfl, rfl, rfl⟩

/-- Settles O23: an index that names no entry, one that names an entry, and the fault and refusal of the index read. -/
theorem iomapLooksUpItsDeviceEntry : Obligations.IomapLooksUpItsDeviceEntry := fun _ =>
  ⟨fun ha hw =>
    ⟨fun habsent => exec_iomap_eq_next.mpr ⟨ha, hw, habsent, rfl⟩,
     fun hnamed => exec_iomap_eq_refused.mpr (.inr ⟨ha, hw, hnamed, rfl⟩)⟩,
   fun ha => exec_iomap_eq_fault.mpr ⟨ha, rfl⟩,
   fun ha hw => exec_iomap_eq_refused.mpr (.inl ⟨ha, hw, rfl⟩)⟩

/-! ## The commit -/

theorem exec_murMc_of_ready (h : s.Ready .murMc) : exec .murMc s = .next (s.after .murMc) :=
  exec_eq_next.mpr ⟨h, rfl⟩

/-- R159: a commit writes the staged code, unless it is the sentinel, into the one cell. -/
theorem after_murMc_microcode_read (s : State) (a : Nat) :
    (s.after .murMc).microcode.read a =
      if s.mur.microOp ≠ s.cfg.loMax ∧ a = s.mur.address then s.mur.microOp else s.microcode.read a := by
  show (nextMicrocode .murMc s).read a = _
  by_cases hdue : s.mur.microOp = s.cfg.loMax
  · simp [nextMicrocode, hdue]
  · simp [nextMicrocode, hdue, Memory.read_write]

/-- R159: a commit binds the staged symbol, unless it is 0, to the staged address. -/
theorem after_murMc_symtab_find (s : State) (k : Nat) :
    cellFind k (s.after .murMc).symtab =
      if s.mur.symbol ≠ 0 ∧ k = s.mur.symbol then some s.mur.address else cellFind k s.symtab := by
  show cellFind k (nextSymtab .murMc s) = _
  by_cases hsym : s.mur.symbol = 0
  · simp [nextSymtab, hsym]
  · by_cases hk : k = s.mur.symbol
    · simp [nextSymtab, hsym, hk]
    · simp [nextSymtab, hsym, hk]

/-- Settles O22: what a commit leaves in each cell and each symbol, and its one fault. -/
theorem commitAppliesTheUpdateRegister : Obligations.CommitAppliesTheUpdateRegister := fun s =>
  ⟨fun hready =>
    ⟨_, exec_murMc_of_ready hready, after_murMc_microcode_read s, after_murMc_symtab_find s, fun hsentinel =>
      if_pos hsentinel, fun hzero => if_pos hzero, rfl⟩,
   fun hdue ha => exec_murMc_eq_fault.mpr ⟨hdue, ha, rfl⟩⟩

/-- Settles O39: the staged code 0 is not the sentinel of a valid configuration, and the staged symbol is 0. -/
theorem unstagedCommitClearsCellZero : Obligations.UnstagedCommitClearsCellZero := by
  intro s hv hmur
  have hdue : s.mur.microOp ≠ s.cfg.loMax := by
    rw [hmur]
    exact Nat.ne_of_lt (Nat.lt_of_lt_of_le Nat.zero_lt_one hv.1)
  have hready : s.Ready .murMc := fun _ => by
    rw [hmur]
    exact Nat.zero_le _
  refine ⟨_, exec_murMc_of_ready hready, ?_, fun a ha => ?_, if_pos (by rw [hmur])⟩
  · rw [after_murMc_microcode_read, if_pos ⟨hdue, by rw [hmur]⟩, hmur]
  · rw [after_murMc_microcode_read, if_neg (by simp [hmur, ha])]

/-- Settles O37: the two stagings always complete and fill the register that the commit then applies. -/
theorem stagedUpdateInstallsAnOpcode : Obligations.StagedUpdateInstallsAnOpcode := by
  intro s w₁ w₂ haddr hcode hsym
  refine ⟨_, _, _, exec_insMur1, exec_insMur2, exec_murMc_of_ready fun _ => haddr, ?_, fun a ha => ?_, ?_, rfl⟩
  · rw [after_murMc_microcode_read]
    exact if_pos ⟨hcode, rfl⟩
  · rw [after_murMc_microcode_read]
    exact if_neg fun h => ha h.2
  · rw [after_murMc_symtab_find]
    exact if_pos ⟨hsym, rfl⟩

/-- R63: the step after a commit of the next cell runs what was committed. -/
theorem step_after_commit_to_next_cell (h : step s = .next t)
    (hcell : s.microcode.read s.mcAddr = encode s.cfg .murMc) (hdue : s.mur.microOp ≠ s.cfg.loMax)
    (haddr : s.mur.address = s.mcAddr + 1) (hdecode : decode s.cfg s.mur.microOp = .ok i) : step t = exec i t := by
  obtain ⟨hv, -, j, hj, hexec⟩ := step_eq_next.mp h
  obtain rfl : j = .murMc := hv.code_injective ((code_of_decode hj).trans hcell)
  obtain ⟨hready, rfl⟩ := exec_eq_next.mp hexec
  have hnext : (s.after .murMc).microcode.read (s.mcAddr + 1) = s.mur.microOp := by
    rw [after_murMc_microcode_read, if_pos ⟨hdue, haddr.symm⟩]
  refine step_eq_exec hv ?_ ?_
  · show s.mcAddr + 1 ≤ s.cfg.mcAddrMax
    exact haddr ▸ hready hdue
  · show decode s.cfg ((s.after .murMc).microcode.read (s.mcAddr + 1)) = .ok i
    rwa [hnext]

/-- R63: `ins_mc` after a commit of its symbol goes where the commit bound it. -/
theorem exec_insMc_after_commit (h : exec .murMc s = .next t) (hsym : s.mur.symbol ≠ 0)
    (hins : hi s.cfg s.ins = s.mur.symbol) : exec .insMc t = .next (t.setCursor s.mur.address .continues) := by
  obtain ⟨-, rfl⟩ := exec_eq_next.mp h
  refine exec_insMc_of_bound ?_
  rw [after_murMc_symtab_find]
  exact if_pos ⟨hsym, hins⟩

/-- Settles O36: the patched cell and the bound symbol. -/
theorem commitsAreSeenByTheNextStep : Obligations.CommitsAreSeenByTheNextStep :=
  ⟨fun _ _ _ => step_after_commit_to_next_cell, fun _ _ => exec_insMc_after_commit⟩

/-- Settles O40: a step that changes a cell is a commit of a code, and the cell is the staged one, whose address and code
the invariant and the commit's range check bound. -/
theorem commitReachAndSentinel : Obligations.CommitReachAndSentinel := by
  intro s t hs h a hchanged
  obtain ⟨-, -, i, hdecode, hexec⟩ := step_eq_next.mp h
  obtain rfl : a = s.mur.address := Decidable.byContradiction fun ha => hchanged (exec_microcode_read_other hexec ha)
  rcases exec_microcode_cases hexec with hkeep | ⟨rfl, hdue, haddr, hwrite⟩
  · exact absurd (by rw [hkeep]) hchanged
  · refine ⟨(code_of_decode hdecode).symm, hs.murAddress, haddr, ?_⟩
    rwa [hwrite, Memory.read_write_same]

end Sys2Proof.Machine

/-! The step (R100 to R102, R109, R112) and what it does not depend on (R23, R24, R110). -/

namespace Sys2Proof.Machine

variable {s t : State} {i : Instr}

/-- Settles O8: `step_eq_exec`. -/
theorem stepRunsTheDecodedMicroOp : Obligations.StepRunsTheDecodedMicroOp := fun _ _ => step_eq_exec

/-- Settles O9: the fetch check, then the decoding of the fetched cell. -/
theorem fetchAndDecodeFaults : Obligations.FetchAndDecodeFaults := fun _ hv =>
  ⟨step_of_cursor_beyond_store hv,
   fun hm hnone => step_eq_fault_table.mpr ⟨hv, .inr (.inl ⟨hm, hnone, rfl⟩)⟩⟩

/-- Settles O14: the equation of `stop`, `setCursor` being the update of the cursor and the answer. -/
theorem stopHaltsAndAdvances : Obligations.StopHaltsAndAdvances := fun _ => exec_stop

/-! ## Halting -/

theorem exec_answer_eq_halts (h : exec i s = .next t) : t.answer = .halts ↔ i = .stop := by
  rw [exec_answer h]
  by_cases hi : i = .stop <;> simp [hi]

/-- R109: the answer is `halt` exactly when the cell at the cursor holds the code of `stop`. -/
theorem step_answer_eq_halts (h : step s = .next t) :
    t.answer = .halts ↔ s.microcode.read s.mcAddr = encode s.cfg .stop := by
  obtain ⟨hv, -, i, hdecode, hexec⟩ := step_eq_next.mp h
  rw [exec_answer_eq_halts hexec, ← (decode_eq_ok hv).mp hdecode]
  exact ⟨fun hi => by rw [hi], hv.code_injective⟩

/-- Settles O27: `step_answer_eq_halts`. -/
theorem onlyStopHalts : Obligations.OnlyStopHalts := fun _ _ => step_answer_eq_halts

/-! ## Independence -/

/-- R110: neither the condition for completing, nor the next state, nor the causes of a stop name the answer. -/
theorem exec_of_other_answer (i : Instr) (s : State) (a : Answer) : exec i { s with answer := a } = exec i s := by
  cases h : exec i s with
  | next t =>
    have hafter := exec_eq_next.mp h
    exact exec_eq_next.mpr hafter
  | fault f =>
    have hcause := (exec_eq_fault i).mp h
    exact (exec_eq_fault i).mpr hcause
  | refused r =>
    have hcause := (exec_eq_refused i).mp h
    exact (exec_eq_refused i).mpr hcause

/-- Settles O28: the fetch does not read the answer either. -/
theorem noMemoryOfHavingHalted : Obligations.NoMemoryOfHavingHalted := by
  intro s a
  have hfetch : fetchInstr { s with answer := a } = fetchInstr s := rfl
  simp only [step, hfetch, exec_of_other_answer]

/-- Settles O41: the two steps run one micro-operation, and `exec_mcAddr` and `exec_answer` name all that the cursor and
the answer come from. -/
theorem microControlDependsOnlyOnIns : Obligations.MicroControlDependsOnlyOnIns := by
  intro s u s' u' hcfg hcursor hstore hsymtab hins hs hu
  obtain ⟨-, -, i, hi, hexec⟩ := step_eq_next.mp hs
  obtain ⟨-, -, j, hj, hexec'⟩ := step_eq_next.mp hu
  rw [← hcfg, ← hstore, ← hcursor, hi] at hj
  obtain rfl : i = j := Except.ok.inj hj
  rw [exec_mcAddr hexec, exec_mcAddr hexec', exec_answer hexec, exec_answer hexec', hcfg, hcursor, hsymtab, hins]
  exact ⟨rfl, rfl⟩

/-- R24: of the next values only `nextProgramCounter` and `nextAddressBus` read the program counter. -/
theorem after_of_other_programCounter (s : State) (i : Instr) (p : Nat) :
    ({ s with programCounter := p } : State).after i =
      { s.after i with
        programCounter := nextProgramCounter i { s with programCounter := p }
        addressBus := nextAddressBus i { s with programCounter := p } } := rfl

/-- Settles O42: fetch, decoding and readiness do not read the program counter. -/
theorem programCounterReachesOnlyTheAddressBus : Obligations.ProgramCounterReachesOnlyTheAddressBus := by
  intro s t p h
  obtain ⟨hv, hm, i, hcode, hready, rfl⟩ := step_eq_next_after.mp h
  exact ⟨_, step_eq_next_after.mpr ⟨hv, hm, i, hcode, hready, rfl⟩, after_of_other_programCounter s i p⟩

/-- R23: only `iomap` asks something of `ins`, and of its lower group. -/
theorem ready_of_same_lo {v : Nat} (hlo : lo s.cfg v = lo s.cfg s.ins) (h : s.Ready i) :
    ({ s with ins := v } : State).Ready i := by
  cases i with
  | iomap =>
    show lo s.cfg v ≤ s.cfg.loMax ∧ inDeviceWindow s (lo s.cfg v) = false ∧
      s.cfg.deviceEntries.length ≤ s.ram.read (lo s.cfg v)
    rw [hlo]
    exact h
  | _ => exact h

/-- R23: of the next values only those of `ins`, the cursor and `mur.symbol` read more of `ins` than its lower group. -/
theorem after_of_same_lo {v : Nat} (hlo : lo s.cfg v = lo s.cfg s.ins) (i : Instr) :
    ({ s with ins := v } : State).after i =
      { s.after i with
        ins := nextIns i { s with ins := v }
        mcAddr := nextCursor i { s with ins := v }
        mur := { nextMur i s with symbol := (nextMur i { s with ins := v }).symbol } } := by
  cases i with
  | insAb | insDb | insPc | insMur1 | insMur2 =>
    simp [State.after, nextAddressBus, nextDataBus, nextProgramCounter, nextAcc, nextRam, nextMicrocode, nextSymtab,
      nextMur, hlo]
  | _ => rfl

theorem nextCursor_of_other_ins (hi : i ≠ .insMc) (s : State) (v : Nat) :
    nextCursor i { s with ins := v } = nextCursor i s := by
  cases i with
  | insMc => exact absurd rfl hi
  | _ => rfl

/-- Settles O43: readiness and the next state, each under a lower group that stays the same. -/
theorem upperGroupReachesOnlySymbols : Obligations.UpperGroupReachesOnlySymbols := by
  intro i s t v hlo h
  obtain ⟨hready, rfl⟩ := exec_eq_next.mp h
  exact ⟨_, exec_eq_next.mpr ⟨ready_of_same_lo hlo hready, rfl⟩, after_of_same_lo hlo i,
    fun hi => nextCursor_of_other_ins hi s v⟩

/-! ## The host's probe -/

/-- Settles O46: in both cases of `storeForFetch` the cursor is in the store and the cell there holds the code. -/
theorem placedCodeRunsNext : Obligations.PlacedCodeRunsNext := by
  intro s nbits w i hv hdecode
  unfold State.withFetchWord storeForFetch
  split
  case isTrue hm => exact step_eq_exec hv hm (by simpa using hdecode)
  case isFalse => exact step_eq_exec hv (Nat.zero_le _) (by simpa using hdecode)

end Sys2Proof.Machine

/-! How a run ends (R108, R111, R239). -/

namespace Sys2Proof.Machine

variable {s t : State}

/-- R109: the cursor after a step that halts is one past the `stop`. -/
theorem step_mcAddr_of_halts (h : step s = .next t) (hhalts : t.answer = .halts) : t.mcAddr = s.mcAddr + 1 := by
  obtain ⟨-, -, i, -, hexec⟩ := step_eq_next.mp h
  obtain rfl : i = .stop := (exec_answer_eq_halts hexec).mp hhalts
  exact exec_mcAddr hexec

theorem runToHalt_halted {n : Nat} (h : runToHalt n s = .halted t) :
    ∃ u, step u = .next t ∧ u.microcode.read u.mcAddr = encode u.cfg .stop ∧ t.mcAddr = u.mcAddr + 1 := by
  obtain ⟨u, hu, hhalts⟩ : (RunEnd.halted t).EndedByStep := h ▸ runToHalt_endedByStep n s
  exact ⟨u, hu, (step_answer_eq_halts hu).mp hhalts, step_mcAddr_of_halts hu hhalts⟩

/-- R111: a run that has ended is not changed by more steps allowed. -/
theorem runToHalt_add {n : Nat} (k : Nat) (hended : ∀ t, runToHalt n s ≠ .unfinished t) :
    runToHalt (n + k) s = runToHalt n s := by
  induction n generalizing s with
  | zero => exact absurd rfl (hended s)
  | succ n ih =>
    rw [Nat.add_right_comm]
    cases h : step s with
    | next t =>
      cases hanswer : t.answer with
      | continues =>
        rw [runToHalt_continues n h hanswer] at hended
        rw [runToHalt_continues _ h hanswer, runToHalt_continues _ h hanswer, ih hended]
      | halts => rw [runToHalt_halts _ h hanswer, runToHalt_halts _ h hanswer]
    | fault f => rw [runToHalt_fault _ h, runToHalt_fault _ h]
    | refused r => rw [runToHalt_refused _ h, runToHalt_refused _ h]

/-- Settles O44: the step that ended the run, and the induction over the steps allowed. -/
theorem howARunEnds : Obligations.HowARunEnds :=
  ⟨fun _ _ _ => runToHalt_halted,
   fun n s _ _ h => (h ▸ runToHalt_endedByStep n s : (RunEnd.aborted _ _).EndedByStep),
   fun _ k _ => runToHalt_add k⟩

/-- R108: a step of `mc_0` at microcode address 0 only records its answer. -/
theorem step_mc0_at_zero (hv : s.cfg.Valid) (hcursor : s.mcAddr = 0)
    (hcell : s.microcode.read 0 = encode s.cfg .mc0) : step s = .next { s with answer := .continues } := by
  have hdecode : decode s.cfg (s.microcode.read s.mcAddr) = .ok .mc0 := by
    rw [hcursor]
    exact (decode_eq_ok hv).mpr hcell.symm
  rw [step_eq_exec hv (hcursor ▸ Nat.zero_le _) hdecode, exec_mc0, State.setCursor, ← hcursor]

/-- Settles O45: by induction on the steps allowed, each of which leads to a state of the same kind. -/
theorem mcZeroAtZeroHangs : Obligations.McZeroAtZeroHangs := by
  intro n
  induction n with
  | zero => exact fun s _ _ _ => ⟨s, rfl, rfl⟩
  | succ n ih =>
    intro s hv hcursor hcell
    rw [runToHalt_continues n (step_mc0_at_zero hv hcursor hcell) rfl]
    exact ih { s with answer := .continues } hv hcursor hcell

end Sys2Proof.Machine

/-! The launch (R38, R43, R220 to R222): what an image's entries leave in the stores, and the launch state. -/

namespace Sys2Proof.Machine

/-! ## Writing an image -/

theorem writeImage_eq_foldl (m : Memory) (l : List (Nat × Nat)) :
    writeImage m l = l.foldl (fun m c => m.write c.1 c.2) m := by
  induction l generalizing m with
  | nil => rfl
  | cons c rest ih => exact ih _

theorem bindImage_eq_foldl (t : SymbolTable) (l : List (Nat × Nat)) :
    bindImage t l = l.foldl (fun t c => symInsert t c.1 c.2) t := by
  induction l generalizing t with
  | nil => rfl
  | cons c rest ih => exact ih _

/-- What holds of a store and is kept by the write of each entry of an image holds after the image is written. -/
theorem writeImage_induction {P : Memory → Prop} {m : Memory} {l : List (Nat × Nat)} (hm : P m)
    (hwrite : ∀ m, P m → ∀ c ∈ l, P (m.write c.1 c.2)) : P (writeImage m l) := by
  rw [writeImage_eq_foldl]
  exact List.foldlRecOn l _ hm hwrite

theorem bindImage_induction {P : SymbolTable → Prop} {t : SymbolTable} {l : List (Nat × Nat)} (ht : P t)
    (hbind : ∀ t, P t → ∀ c ∈ l, P (symInsert t c.1 c.2)) : P (bindImage t l) := by
  rw [bindImage_eq_foldl]
  exact List.foldlRecOn l _ ht hbind

theorem writeImage_wf {m : Memory} (hm : m.wf) (l : List (Nat × Nat)) : (writeImage m l).wf :=
  writeImage_induction hm fun _ h c _ => Memory.write_wf h c.1 c.2

theorem writeImage_within {m : Memory} {l : List (Nat × Nat)} {bound : Nat} (hm : ∀ c ∈ m, c.1 ≤ bound)
    (hl : ∀ c ∈ l, c.1 ≤ bound) : ∀ c ∈ writeImage m l, c.1 ≤ bound :=
  writeImage_induction (P := fun m => ∀ c ∈ m, c.1 ≤ bound) hm fun _ h c hc => Memory.write_within h (hl c hc) c.2

theorem writeImage_read_le {m : Memory} {l : List (Nat × Nat)} {bound : Nat} (hm : ∀ a, m.read a ≤ bound)
    (hl : ∀ c ∈ l, c.2 ≤ bound) (a : Nat) : (writeImage m l).read a ≤ bound := by
  refine writeImage_induction (P := fun m => m.read a ≤ bound) (hm a) fun m h c hc => ?_
  rw [Memory.read_write]
  split
  · exact hl c hc
  · exact h

theorem bindImage_wf {t : SymbolTable} (ht : t.wf) (l : List (Nat × Nat)) : (bindImage t l).wf :=
  bindImage_induction ht fun _ h c _ => symInsert_wf h c.1 c.2

theorem writeImage_read_unlisted {m : Memory} {l : List (Nat × Nat)} {a : Nat} (ha : a ∉ l.map Prod.fst) :
    (writeImage m l).read a = m.read a :=
  writeImage_induction (P := fun u => u.read a = m.read a) rfl fun u h c hc => by
    rw [Memory.read_write_other (ne_of_mem_of_not_mem (List.mem_map_of_mem hc) ha).symm, h]

theorem bindImage_find_unlisted {t : SymbolTable} {l : List (Nat × Nat)} {k : Nat} (hk : k ∉ l.map Prod.fst) :
    cellFind k (bindImage t l) = cellFind k t :=
  bindImage_induction (P := fun u => cellFind k u = cellFind k t) rfl fun u h c hc => by
    rw [cellFind_symInsert_other (ne_of_mem_of_not_mem (List.mem_map_of_mem hc) hk).symm, h]

/-- Of two entries for one cell the later counts (log 7). -/
theorem writeImage_read_last (m : Memory) (before : List (Nat × Nat)) {after : List (Nat × Nat)} {a : Nat} (v : Nat)
    (ha : a ∉ after.map Prod.fst) : (writeImage m (before ++ (a, v) :: after)).read a = v := by
  rw [writeImage_eq_foldl, List.foldl_append, List.foldl_cons, ← writeImage_eq_foldl, writeImage_read_unlisted ha,
    Memory.read_write_same]

theorem bindImage_find_last (t : SymbolTable) (before : List (Nat × Nat)) {after : List (Nat × Nat)} {k : Nat} (a : Nat)
    (hk : k ∉ after.map Prod.fst) : cellFind k (bindImage t (before ++ (k, a) :: after)) = some a := by
  rw [bindImage_eq_foldl, List.foldl_append, List.foldl_cons, ← bindImage_eq_foldl, bindImage_find_unlisted hk,
    cellFind_symInsert_same]

/-! ## Resolving a microcode image -/

theorem resolveImage_cons {cfg : Config} {a : Nat} {c : ImageCode} {rest : List (Nat × ImageCode)}
    {codes : List (Nat × Nat)} :
    resolveImage cfg ((a, c) :: rest) = some codes ↔
      ∃ n ns, c.resolve cfg = some n ∧ resolveImage cfg rest = some ns ∧ codes = (a, n) :: ns := by
  rw [resolveImage]
  cases c.resolve cfg <;> cases resolveImage cfg rest <;> simp [eq_comm]

theorem resolveImage_keys {cfg : Config} {l : List (Nat × ImageCode)} {codes : List (Nat × Nat)}
    (h : resolveImage cfg l = some codes) : codes.map Prod.fst = l.map Prod.fst := by
  induction l generalizing codes with
  | nil =>
    cases h
    rfl
  | cons entry rest ih =>
    obtain ⟨n, ns, -, hrest, rfl⟩ := resolveImage_cons.mp h
    rw [List.map_cons, List.map_cons, ih hrest]

/-- R38: the entries stay in their places. -/
theorem resolveImage_append_cons {cfg : Config} {before after : List (Nat × ImageCode)} {a n : Nat} {c : ImageCode}
    {codes : List (Nat × Nat)} (h : resolveImage cfg (before ++ (a, c) :: after) = some codes)
    (hc : c.resolve cfg = some n) :
    ∃ codes₁ codes₂, codes = codes₁ ++ (a, n) :: codes₂ ∧ codes₂.map Prod.fst = after.map Prod.fst := by
  induction before generalizing codes with
  | nil =>
    obtain ⟨n', ns, hn', hafter, rfl⟩ := resolveImage_cons.mp h
    obtain rfl : n = n' := Option.some.inj (hc.symm.trans hn')
    exact ⟨[], ns, rfl, resolveImage_keys hafter⟩
  | cons entry rest ih =>
    obtain ⟨m, ns, -, hrest, rfl⟩ := resolveImage_cons.mp h
    obtain ⟨codes₁, codes₂, rfl, hkeys⟩ := ih hrest
    exact ⟨(entry.1, m) :: codes₁, codes₂, rfl, hkeys⟩

/-! ## The launch state -/

/-- The state that an acceptable image gives. -/
def LaunchImage.toState (img : LaunchImage) (codes : List (Nat × Nat)) : State where
  cfg := img.cfg
  addressBus := img.addressBus
  dataBus := img.dataBus
  ins := img.ins
  programCounter := img.programCounter
  acc := img.acc
  mcAddr := 0
  ram := writeImage [] img.ram
  microcode := writeImage [] codes
  symtab := bindImage [] img.symbols
  mur := .zero
  deviceMappings := []
  answer := .continues

theorem launch_eq_some {img : LaunchImage} {s : State} :
    launch img = some s ↔
      ∃ codes, resolveImage img.cfg img.microcode = some codes ∧ img.Acceptable codes ∧ s = img.toState codes := by
  unfold launch
  cases resolveImage img.cfg img.microcode with
  | none => simp
  | some codes => simp [LaunchImage.toState, eq_comm]

theorem memory_nil_wf : Memory.wf [] := ⟨.nil, List.forall_mem_nil _⟩

/-- R222: the launch condition's clauses, each from the image's. -/
theorem LaunchImage.toState_launchOk {img : LaunchImage} {codes : List (Nat × Nat)} (h : img.Acceptable codes) :
    (img.toState codes).LaunchOk := by
  obtain ⟨hvalid, hdata, hins, hacc, hram, hcodes⟩ := h
  exact
    { valid := hvalid
      ramWf := writeImage_wf memory_nil_wf _
      ramSize := writeImage_within (List.forall_mem_nil _) fun c hc => (hram c hc).1
      microcodeWf := writeImage_wf memory_nil_wf _
      microcodeSize := writeImage_within (List.forall_mem_nil _) hcodes
      symtabWf := bindImage_wf .nil _
      range := ⟨hdata, hins, hacc, fun a _ =>
        writeImage_read_le (fun _ => Nat.zero_le _) (fun c hc => (hram c hc).2) a⟩
      mcAddr := rfl
      mur := rfl
      noMappings := rfl }

/-- Settles O33: the launch by `launch_eq_some`; each listed and unlisted cell by the laws of `writeImage` and
`bindImage`. -/
theorem launchMeetsTheLaunchCondition : Obligations.LaunchMeetsTheLaunchCondition := by
  refine ⟨fun img => ?_, fun img s h => ?_⟩
  · constructor
    · rintro ⟨s, h⟩
      obtain ⟨codes, hcodes, hok, -⟩ := launch_eq_some.mp h
      exact ⟨codes, hcodes, hok⟩
    · rintro ⟨codes, hcodes, hok⟩
      exact ⟨_, launch_eq_some.mpr ⟨codes, hcodes, hok, rfl⟩⟩
  · obtain ⟨codes, hcodes, hok, rfl⟩ := launch_eq_some.mp h
    refine ⟨LaunchImage.toState_launchOk hok, rfl, rfl, rfl, rfl, rfl, rfl, fun a ha => writeImage_read_unlisted ha,
      fun before after a v hram ha => ?_, fun a ha => ?_, fun before after a c n hmc ha hn => ?_,
      fun k hk => bindImage_find_unlisted hk, fun before after k a hsym hk => ?_⟩
    · show (writeImage [] img.ram).read a = v
      rw [hram]
      exact writeImage_read_last _ before v ha
    · exact writeImage_read_unlisted (by rwa [resolveImage_keys hcodes])
    · rw [hmc] at hcodes
      obtain ⟨codes₁, codes₂, rfl, hkeys⟩ := resolveImage_append_cons hcodes hn
      exact writeImage_read_last _ codes₁ n (by rwa [hkeys])
    · show cellFind k (bindImage [] img.symbols) = some a
      rw [hsym]
      exact bindImage_find_last _ before a hk

/-- R222 and R43: the launch state's zeroed update register fits the digit groups. -/
theorem State.LaunchOk.inv {s : State} (h : s.LaunchOk) : s.Inv :=
  have hmur : s.mur.Fits s.cfg := h.mur ▸ UpdateRegister.zero_fits s.cfg
  { h with murAddress := hmur.address, murMicroOp := hmur.microOp, murSymbol := hmur.symbol }

/-- The reset state is the launch of an image with nothing in it. -/
theorem reset_launchOk : State.reset.LaunchOk :=
  LaunchImage.toState_launchOk (img := ⟨.reference, 0, 0, 0, 0, 0, [], [], []⟩) (codes := []) (by decide)

/-- Settles O32: the reset state as a launch state, and the invariant of every launch state. -/
theorem resetIsAWellFormedLaunchState : Obligations.ResetIsAWellFormedLaunchState :=
  ⟨reset_launchOk, rfl, rfl, rfl, fun _ => State.LaunchOk.inv⟩

end Sys2Proof.Machine

/-! The environment's data (R178, R181, R183). -/

namespace Sys2Proof.Machine

/-- R181: the length byte of a frame holds the payload's length, and that many bytes are read back. -/
theorem readFrame_append {payload : List Byte} (h : payload.length ≤ 255) (rest : List Byte) :
    readFrame ((BitVec.ofNat 8 payload.length :: payload) ++ rest) = some (payload, rest) := by
  have hbyte : (BitVec.ofNat 8 payload.length).toNat = payload.length := by
    rw [BitVec.toNat_ofNat, Nat.mod_eq_of_lt (by omega)]
  simp [readFrame, hbyte]

/-- Settles O47: a payload of up to 255 bytes is framed and read back, a longer one has no frame. -/
theorem framesReadBack : Obligations.FramesReadBack := fun _ =>
  ⟨fun hshort => ⟨_, if_pos hshort, rfl, readFrame_append hshort⟩, fun hlong => if_neg (Nat.not_le.mpr hlong)⟩

/-- R178, R183: the addresses of the window that an attachment registers. -/
theorem inDeviceWindow_finishAttach (s : State) {req dmin dmax a : Nat} (rd wr : String) (hlow : req ≤ a)
    (hhigh : (a : Int) ≤ (attachedMapping req dmin dmax rd wr).maxAddr) :
    inDeviceWindow (finishAttach s req [dmin, dmax] rd wr) a = true := by
  have hmin : (attachedMapping req dmin dmax rd wr).minAddr ≤ a := hlow
  simp [inDeviceWindow, finishAttach, hmin, hhigh]

theorem attachedMapping_maxAddr (req dmin dmax : Nat) (rd wr : String) :
    (attachedMapping req dmin dmax rd wr).maxAddr = (req : Int) + ((dmax : Int) - (dmin : Int)) := by
  simp only [attachedMapping]
  omega

theorem deviceAddress_attachedMapping (req dmin dmax : Nat) (rd wr : String) (a : Nat) :
    (attachedMapping req dmin dmax rd wr).deviceAddress a = (a : Int) + ((dmin : Int) - (req : Int)) := rfl

/-- Settles O48: the window's ends by integer arithmetic; an access in range and inside it is refused. -/
theorem attachedWindowTranslatesAndRefuses : Obligations.AttachedWindowTranslatesAndRefuses := by
  intro s req dmin dmax rd wr
  refine ⟨attachedMapping_maxAddr .., ?_, fun hd => ?_, fun a hlow hhigh hd ha => ?_⟩
  · rw [deviceAddress_attachedMapping]
    omega
  · rw [deviceAddress_attachedMapping]
    omega
  · have hw : inDeviceWindow (finishAttach s req [dmin, dmax] rd wr) a = true :=
      inDeviceWindow_finishAttach s rd wr hlow (by rw [attachedMapping_maxAddr]; omega)
    exact ⟨memRead_eq_refused.mpr ⟨ha, hw, rfl⟩, fun _ => memWrite_eq_refused.mpr ⟨ha, hw, rfl⟩⟩

end Sys2Proof.Machine
